-- ==== Sys2Proof/Word.lean ====
section
/-! DEFINITION. The bit-vector types of PDVC (00_scope R9: every integer is unsigned, bit 0 is the least significant). -/

namespace Sys2Proof

/-- A byte of the STREAM, of CBUF and of PBUF (20_memory R60). -/
abbrev Byte := BitVec 8

/-- A 16-bit header field (30_encoding R91). -/
abbrev Half := BitVec 16

/-- A 32-bit word: an ENTRY, a STREAM address, a u32 header field (30_encoding R91, R97; 10_state R34). -/
abbrev Word := BitVec 32

/-- One raster element, `PIXEL_BITS` = 8 bits wide (44_raster_expander R210). -/
abbrev Pixel := BitVec 8

/-- A frame index or a table length, 17 bits (10_state R28, R32). -/
abbrev Index := BitVec 17

end Sys2Proof
end

