-- ==== Sys2Proof/Config.lean ====
section
/-! DEFINITION. What an implementation fixes (00_scope R8) and the free values of the model. -/

namespace Sys2Proof

/-- `HEADER_SIZE`, bytes (00_scope R8). -/
def Config.headerSize : Nat := 28

/-- `ENTRY_SIZE`, bytes (00_scope R8). -/
def Config.entrySize : Nat := 4

/-- `MAGIC`: the 12 bytes of "Playdate VID" in stream order, a named parameter with this default
(00_scope R8, 30_encoding R92; decision D4; log entry 2). -/
def Config.magic : Vector Byte 12 :=
  #v[0x50, 0x6C, 0x61, 0x79, 0x64, 0x61, 0x74, 0x65, 0x20, 0x56, 0x49, 0x44]

/-- A free value of the model: what the Inflate oracle answers for an input that the state's own
list of answers does not name (00_scope R6.3, R8: OPEN). `none` is the oracle's `fail`. It has no
body, so nothing can be proved of it but that it is a function of the bytes (70 R271; log entry 5). -/
opaque Config.inflate : List Byte → Option (List Byte)

/-- A free value of the model: the byte at STREAM address `addr`, below STREAM_LEN, that the host's STREAM
does not reach (70_reset_and_hazards R262 item 3 makes it the host's duty that there is none, and no rule
states the byte). `toCome` is how many requests are still to come at START: it falls with every request
served, so two sessions of one run share no such byte (log entry 15). -/
opaque Config.absentByte : (toCome addr : Nat) → Byte

end Sys2Proof
end

