-- ==== Sys2Proof/Syntax.lean ====
section
/-! DEFINITION. The instructions of PDVC: one constructor for each row of spec/opcode_table.json. -/

namespace Sys2Proof

/-- The closed enumeration of the 2-bit tag of an ENTRY (40_entry_codec R120). -/
inductive FrameType where
  | empty
  | iFrame
  | pFrame
  | ipFrame
  deriving DecidableEq, Repr

/-- A container header: the seven fields of the HEADER format (41_header_codec R140). `magic` is
a string of 12 bytes, compared as bytes (20_memory R62). -/
structure Header where
  magic : Vector Byte 12
  reserved1 : Word
  numFrames : Half
  reserved2 : Half
  frameRate : Word
  width : Half
  height : Half
  deriving DecidableEq, Repr

/-- The three formats (30_encoding R90). Which one a byte string is in is said by where it stands:
the header at STREAM address 0, an entry in the table, a request on the host's port. -/
inductive Format where
  | header
  | entry
  | opsel
  deriving DecidableEq, Repr

/-- The instructions of PDVC. The container's own words (ENTRY and HEADER rows) carry their fields;
the function operations and RUN carry the operands the host presents (00_scope R13). -/
inductive Instr where
  /-- ENTRY.Empty (30_encoding R98). -/
  | entryEmpty (offset : BitVec 30)
  /-- ENTRY.IFrame (30_encoding R98). -/
  | entryIFrame (offset : BitVec 30)
  /-- ENTRY.PFrame (30_encoding R98). -/
  | entryPFrame (offset : BitVec 30)
  /-- ENTRY.IPFrame (30_encoding R98). -/
  | entryIPFrame (offset : BitVec 30)
  /-- HEADER (30_encoding R91). -/
  | header (h : Header)
  /-- EOFF (40_entry_codec R121). -/
  | eoff (entry : Word)
  /-- ETYPE (40_entry_codec R122). -/
  | etype (entry : Word)
  /-- EPACK (40_entry_codec R124). -/
  | epack (offset : Word) (type : FrameType)
  /-- HPARSE (41_header_codec R142). -/
  | hparse (bytes : List Byte)
  /-- HBUILD (41_header_codec R145); `none` is an omitted `num_frames` (R147). -/
  | hbuild (frameRate : Word) (width height : Half) (numFrames : Option Half)
  /-- TVALID (42_frame_table R163). -/
  | tvalid (table : List Word)
  /-- REXP (44_raster_expander R211). -/
  | rexp (byte : Byte)
  /-- RASM (44_raster_expander R212). -/
  | rasm (payload : List Byte) (width height : Half)
  /-- S_HDR (41_header_codec R150). -/
  | sHdr
  /-- S_DIM (41_header_codec R152). -/
  | sDim
  /-- S_TREAD (42_frame_table R161). -/
  | sTread
  /-- S_TVALID (42_frame_table R164). -/
  | sTvalid
  /-- S_SPAN (43_frame_extraction R179). -/
  | sSpan
  /-- S_FETCH (43_frame_extraction R182). -/
  | sFetch
  /-- S_INFL (43_frame_extraction R183). -/
  | sInfl
  /-- S_EXPAND (43_frame_extraction R185). -/
  | sExpand
  /-- S_NEXT (43_frame_extraction R187). -/
  | sNext
  /-- RESET (70_reset_and_hazards R260). -/
  | reset
  /-- RUN, the START command, with STREAM and STREAM_LEN (43_frame_extraction R177, R188). -/
  | run (stream : List Byte) (streamLen : Word)
  deriving DecidableEq, Repr

end Sys2Proof
end

