-- ==== Sys2Proof/Machine/State.lean ====
section
/-! DEFINITION. The state of PDVC (10_state R20 to R45), the parameters of its step relation
(00_scope R8), the host's two ports, and the machine after reset. -/

namespace Sys2Proof.Machine

/-- PHASE (10_state R31). The values 0xC to 0xF are never held and have no constructor (93 U10). -/
inductive Phase where
  | idle
  | sHdr
  | sDim
  | sTread
  | sTvalid
  | sSpan
  | sFetch
  | sInfl
  | sExpand
  | sNext
  | done
  | error
  deriving DecidableEq, Repr

/-- STATUS, a function of PHASE (10_state R39). -/
inductive Status where
  | idle
  | busy
  | done
  | error
  deriving DecidableEq, Repr

/-- The error set, and `none` for no error (10_state R40, 60_exceptions R225). -/
inductive ErrCode where
  | none
  | invalidMagic
  | ioError
  | invalidRange
  | malformedTable
  | corruptFrame
  | offsetTooLarge
  | invalidDimensions
  deriving DecidableEq, Repr

/-- One record of OUT (10_state R38). -/
structure OutRecord where
  frameNo : Half
  width : Half
  height : Half
  raster : List Pixel
  deriving DecidableEq, Repr

/-- The state elements of 10_state R21 to R40, by name. -/
inductive Elem where
  | hValid | hMagic | hReserved1 | hNumFrames | hReserved2 | hFrameRate | hWidth | hHeight
  | table (i : Nat) | tLen | tValid
  | phase | idx | cursor | dataBase | spanStart | spanEnd | plen | framesOut
  | cbuf | pbuf | raster | out
  | errCode | errIndex | errOffset
  deriving DecidableEq, Repr

/-- What a host read of a state element gets (10_state R42, 70_reset_and_hazards R268). -/
inductive ElemValue where
  /-- A flag, a register or a code, as its unsigned value. -/
  | number (v : Nat)
  /-- ERR_INDEX, which may be the value `none` (10_state R40). -/
  | optional (v : Option Nat)
  | bytes (b : List Byte)
  | pixels (p : List Pixel)
  | records (r : List OutRecord)
  deriving DecidableEq, Repr

/-- What the operation port answers (30_encoding R105, R106; 60_exceptions R238). -/
inductive Answer where
  /-- `refused`: no result, no state change, no error (30_encoding R106). -/
  | refused
  /-- The named error as an operation's answer (60_exceptions R238). -/
  | error (e : ErrCode)
  /-- EOFF's and EPACK's result. -/
  | word (w : Word)
  /-- ETYPE's result. -/
  | frameType (t : FrameType)
  /-- HPARSE's result. -/
  | header (h : Header)
  /-- HBUILD's result, 28 bytes. -/
  | bytes (b : List Byte)
  /-- TVALID's result. -/
  | bool (b : Bool)
  /-- REXP's and RASM's result. -/
  | pixels (p : List Pixel)
  deriving DecidableEq, Repr

/-- A request the host presents: after `delay` further steps of the machine, OPSEL and operands
(30_encoding R105). `delay` says which agent moves next (log entry 7). -/
structure Request where
  delay : Nat
  opsel : BitVec 5
  operands : List Byte
  deriving DecidableEq, Repr

/-- What may happen to a read that lies inside the STREAM, other than being answered with its bytes. -/
inductive IoAnswer where
  /-- `IoFail` says that the read fails (20_memory R64). -/
  | fail
  /-- The read is never answered (93 U12, 70_reset_and_hazards R273). -/
  | never
  deriving DecidableEq, Repr

/-- What the Inflate oracle does with one input (00_scope R6.3). -/
inductive InflateAnswer where
  | ok (payload : List Byte)
  | fail
  /-- The request is never answered (93 U12, 70_reset_and_hazards R273). -/
  | never
  deriving DecidableEq, Repr

/-- What `MemRead` gives (20_memory R64), or that it gives nothing, ever (93 U12). -/
inductive ReadAnswer where
  | bytes (b : List Byte)
  | fail
  | never
  deriving DecidableEq, Repr

/-- The option EMPTY_FIRST_ENTRY (00_scope R8, decision D12). -/
inductive EmptyFirst where
  | process
  | refuse
  deriving DecidableEq, Repr

/-- The STREAM as (address, byte) pairs in one canonical form: addresses strictly rising, no byte 0,
which is what an unlisted address below STREAM_LEN holds (log entry 3). -/
abbrev Memory := List Host.Cell

/-- Why a step of the model stops. Each is safe: the model stops where the spec gives no effect, and
no state a session can reach meets one (10_state R46). -/
inductive Fault where
  /-- A step reads an element that holds no value: S_DIM, S_TREAD, S_TVALID, S_SPAN, S_FETCH, S_INFL,
  S_EXPAND, S_NEXT and the ENTRY words raise it (10_state R21, 93 U8: treatment `fault`). Safe. -/
  | noValue (e : Elem)
  /-- S_FETCH meets SPAN_END below SPAN_START, where `SPAN_END - SPAN_START` is not computed
  (43_frame_extraction R176). Safe. -/
  | spanReversed
  /-- S_EXPAND meets a payload or dimensions outside RASM's precondition, where the spec gives RASM
  no behaviour (44_raster_expander R212). Safe. -/
  | rasmPrecondition
  deriving DecidableEq, Repr

/-- Why a step of the model has no meaning. A request that PDVC itself refuses is no refusal of the
model: PDVC answers `refused` and goes on (30_encoding R106). -/
inductive Refusal where
  /-- Raised by a rejected arm of `exec`, for an instruction without a meaning yet; none is. Safe. -/
  | notModelled (mnemonic : String)
  deriving DecidableEq, Repr

/-- The state of PDVC. `Option` marks the elements that hold no value until they are written
(10_state R45, log entry 1). -/
structure State where
  /-- H_VALID (10_state R21). -/
  hValid : Bool
  /-- H_MAGIC (10_state R22). -/
  hMagic : Option (BitVec 96)
  /-- H_RESERVED1 (10_state R23). -/
  hReserved1 : Option Word
  /-- H_NUMFRAMES (10_state R24). -/
  hNumFrames : Option Half
  /-- H_RESERVED2 (10_state R23). -/
  hReserved2 : Option Half
  /-- H_FRAMERATE (10_state R25). -/
  hFrameRate : Option Word
  /-- H_WIDTH (10_state R26). -/
  hWidth : Option Half
  /-- H_HEIGHT (10_state R26). -/
  hHeight : Option Half
  /-- TABLE: the words that hold a value, in entry order (10_state R27). -/
  table : List Word
  /-- T_LEN (10_state R28). -/
  tLen : Option Index
  /-- T_VALID (10_state R28). -/
  tValid : Bool
  /-- PHASE (10_state R31). -/
  phase : Phase
  /-- IDX (10_state R32). -/
  idx : Index
  /-- CURSOR (10_state R33). -/
  cursor : Word
  /-- DATA_BASE (10_state R34). -/
  dataBase : Option Word
  /-- SPAN_START (10_state R34). -/
  spanStart : Option Word
  /-- SPAN_END (10_state R34). -/
  spanEnd : Option Word
  /-- PLEN (10_state R35). -/
  plen : Option Word
  /-- FRAMES_OUT (10_state R36). -/
  framesOut : Half
  /-- CBUF; CLEN is its length (10_state R37). -/
  cbuf : Option (List Byte)
  /-- PBUF (10_state R37). -/
  pbuf : Option (List Byte)
  /-- RASTER (10_state R37). -/
  raster : Option (List Pixel)
  /-- OUT, oldest record first (10_state R38). -/
  out : List OutRecord
  /-- ERR_CODE (10_state R40). -/
  errCode : ErrCode
  /-- ERR_INDEX (10_state R40). -/
  errIndex : Option Index
  /-- ERR_OFFSET (10_state R40). -/
  errOffset : Word
  /-- STREAM, a parameter of the session (00_scope R8, 20_memory R60). -/
  stream : Memory
  /-- STREAM_LEN, a parameter of the session (00_scope R8). -/
  streamLen : Word
  /-- The IoFail oracle: the reads `(addr, n)` that are not answered with their bytes (00_scope R6.4). -/
  ioAnswers : List ((Nat × Nat) × IoAnswer)
  /-- The Inflate oracle on the inputs listed; every other input is answered by `Config.inflate`
  (00_scope R6.3). -/
  inflateAnswers : List (List Byte × InflateAnswer)
  /-- EMPTY_FIRST_ENTRY (00_scope R8). -/
  emptyFirst : EmptyFirst
  /-- The host's requests still to be served, the first to come first (log entry 7). -/
  inbox : List Request
  /-- What the operation port has answered, oldest first (log entry 8). -/
  answers : List Answer
  deriving DecidableEq, Repr

/-- The machine after reset (10_state R45), with no STREAM presented, every oracle at its default and
nothing on the ports (log entries 3 to 8). -/
def State.reset : State where
  hValid := false
  hMagic := none
  hReserved1 := none
  hNumFrames := none
  hReserved2 := none
  hFrameRate := none
  hWidth := none
  hHeight := none
  table := []
  tLen := none
  tValid := false
  phase := .idle
  idx := 0
  cursor := 0
  dataBase := none
  spanStart := none
  spanEnd := none
  plen := none
  framesOut := 0
  cbuf := none
  pbuf := none
  raster := none
  out := []
  errCode := .none
  errIndex := none
  errOffset := 0
  stream := []
  streamLen := 0
  ioAnswers := []
  inflateAnswers := []
  emptyFirst := .process
  inbox := []
  answers := []

end Sys2Proof.Machine
end

