-- ==== Sys2Proof/Machine/Flags.lean ====
section
/-! DEFINITION. The codes of PHASE and ERR_CODE, and STATUS. PDVC has no condition codes: its one-bit
state is H_VALID and T_VALID, written by S_HDR and S_TREAD alone (10_state R41). -/

namespace Sys2Proof.Machine

/-- The 4-bit code of a PHASE (10_state R31). -/
def Phase.code : Phase → BitVec 4
  | .idle => 0x0
  | .sHdr => 0x1
  | .sDim => 0x2
  | .sTread => 0x3
  | .sTvalid => 0x4
  | .sSpan => 0x5
  | .sFetch => 0x6
  | .sInfl => 0x7
  | .sExpand => 0x8
  | .sNext => 0x9
  | .done => 0xA
  | .error => 0xB

/-- `OPSEL = 0x10 | PHASE` (30_encoding R105). -/
def Phase.opsel (p : Phase) : BitVec 5 := 0x10 ||| p.code.setWidth 5

/-- STATUS as a function of PHASE (10_state R39). -/
def Phase.status : Phase → Status
  | .idle => .idle
  | .sHdr | .sDim | .sTread | .sTvalid | .sSpan | .sFetch | .sInfl | .sExpand | .sNext => .busy
  | .done => .done
  | .error => .error

/-- STATUS (10_state R39). -/
def State.status (s : State) : Status := s.phase.status

/-- The 3-bit number of an error (10_state R40, 60_exceptions R225). -/
def ErrCode.code : ErrCode → BitVec 3
  | .none => 0
  | .invalidMagic => 1
  | .ioError => 2
  | .invalidRange => 3
  | .malformedTable => 4
  | .corruptFrame => 5
  | .offsetTooLarge => 6
  | .invalidDimensions => 7

end Sys2Proof.Machine
end

