-- ==== Sys2Proof/WellFormed.lean ====
section
/-! DEFINITION. Which instructions an encoding exists for. -/

namespace Sys2Proof

/-- A HEADER word begins with MAGIC (30_encoding R92). Every other operand value has an encoding. -/
def Instr.wellFormed : Instr → Bool
  | .header h => h.magic = Config.magic
  | .entryEmpty _ | .entryIFrame _ | .entryPFrame _ | .entryIPFrame _ => true
  | .eoff _ | .etype _ | .epack _ _ | .hparse _ | .hbuild _ _ _ _ => true
  | .tvalid _ | .rexp _ | .rasm _ _ _ => true
  | .sHdr | .sDim | .sTread | .sTvalid | .sSpan | .sFetch | .sInfl | .sExpand | .sNext => true
  | .reset | .run _ _ => true

end Sys2Proof
end

