-- ==== Sys2Proof/Decode.lean ====
section
/-! DEFINITION. Byte order, the fields of the three formats, the decoder, and after it the encoder. -/

namespace Sys2Proof

/-! ## Byte order (00_scope R10, 20_memory R62) -/

/-- `le(b)`: the little-endian value of a byte sequence (00_scope R10). -/
def le : List Byte → Nat
  | [] => 0
  | b :: bs => b.toNat + 256 * le bs

/-- `bytes_le_n(v)`: the inverse of `le` on `n` bytes (00_scope R10). -/
def leBytes : Nat → Nat → List Byte
  | 0, _ => []
  | n + 1, v => BitVec.ofNat 8 v :: leBytes n (v / 256)

/-- A little-endian 32-bit field (30_encoding R91, R97). -/
def wordOf (b : List Byte) : Word := BitVec.ofNat 32 (le b)

/-- A little-endian 16-bit field (30_encoding R91). -/
def halfOf (b : List Byte) : Half := BitVec.ofNat 16 (le b)

/-- The four bytes of a 32-bit field. -/
def wordBytes (w : Word) : List Byte := leBytes 4 w.toNat

/-- The two bytes of a 16-bit field. -/
def halfBytes (h : Half) : List Byte := leBytes 2 h.toNat

/-- A byte sequence read as consecutive 32-bit words; a rest shorter than a word gives none. -/
def wordsOf : List Byte → List Word
  | a :: b :: c :: d :: rest => wordOf [a, b, c, d] :: wordsOf rest
  | _ => []

/-! ## The ENTRY format (30_encoding R97 to R101) -/

/-- The number of a frame type (40_entry_codec R120). -/
def FrameType.tag : FrameType → BitVec 2
  | .empty => 0
  | .iFrame => 1
  | .pFrame => 2
  | .ipFrame => 3

/-- The frame type of a 2-bit tag: every pattern is one (40_entry_codec R120). -/
def FrameType.ofTag (t : BitVec 2) : FrameType :=
  match t.toNat with
  | 0 => .empty
  | 1 => .iFrame
  | 2 => .pFrame
  | _ => .ipFrame

/-- The offset field `e[31:2]` of an entry (30_encoding R97, R99). -/
def entryOffset (e : Word) : BitVec 30 := e.extractLsb' 2 30

/-- The type field `e[1:0]` of an entry (30_encoding R97, R98). -/
def entryType (e : Word) : FrameType := .ofTag (e.extractLsb' 0 2)

/-- The word with a given offset and type (30_encoding R97). -/
def entryWord (offset : BitVec 30) (type : FrameType) : Word := offset ++ type.tag

/-! ## The HEADER format (30_encoding R91) -/

/-- The bytes `b[lo .. lo+n-1]`. -/
def sliceOf (b : List Byte) (lo n : Nat) : List Byte := (b.drop lo).take n

/-- The Magic field `b[0..11]` of a header record, in stream order (30_encoding R91, R92). -/
def magicOf (b : List Byte) : Vector Byte 12 := Vector.ofFn fun k => b.getD k 0

/-- The seven fields of a header record, without any check (30_encoding R91, 41_header_codec R142). -/
def headerOf (b : List Byte) : Header where
  magic := magicOf b
  reserved1 := wordOf (sliceOf b 12 4)
  numFrames := halfOf (sliceOf b 16 2)
  reserved2 := halfOf (sliceOf b 18 2)
  frameRate := wordOf (sliceOf b 20 4)
  width := halfOf (sliceOf b 24 2)
  height := halfOf (sliceOf b 26 2)

/-- `hdr_bytes(h)`, the serialisation of a header (41_header_codec R141). -/
def headerBytes (h : Header) : List Byte :=
  h.magic.toList ++ wordBytes h.reserved1 ++ halfBytes h.numFrames ++ halfBytes h.reserved2 ++
    wordBytes h.frameRate ++ halfBytes h.width ++ halfBytes h.height

/-! ## The decoder -/

/-- Why a byte string is no instruction of its format. None of these stops the machine: on the
port each is answered `refused` (30_encoding R106). -/
inductive DecodeError where
  /-- A HEADER is 28 bytes and an ENTRY 4 (30_encoding R90). -/
  | formatLength
  /-- The Magic field differs from MAGIC (30_encoding R106 a). -/
  | badMagic
  /-- A reserved OPSEL code (30_encoding R105). -/
  | reservedOpsel (code : BitVec 5)
  /-- An OPSEL is five bits: the three bits above it in its byte are not zero (log entry 9). -/
  | opselByte
  /-- The operand bytes are not as many as the operation's operands take (30_encoding R106 d). -/
  | operandLength
  /-- EPACK's type operand is a 2-bit tag and its byte holds more (40_entry_codec R124). -/
  | frameTypeTag
  deriving DecidableEq, Repr

/-- Decode an ENTRY: every word is one (30_encoding R100). -/
def decodeEntry (b : List Byte) : Except DecodeError Instr :=
  if b.length = 4 then
    match entryType (wordOf b) with
    | .empty => .ok (.entryEmpty (entryOffset (wordOf b)))
    | .iFrame => .ok (.entryIFrame (entryOffset (wordOf b)))
    | .pFrame => .ok (.entryPFrame (entryOffset (wordOf b)))
    | .ipFrame => .ok (.entryIPFrame (entryOffset (wordOf b)))
  else .error .formatLength

/-- Decode a HEADER: valid if and only if its first 12 bytes are MAGIC (30_encoding R92). -/
def decodeHeader (b : List Byte) : Except DecodeError Instr :=
  if b.length = 28 then
    if b.take 12 = Config.magic.toList then .ok (.header (headerOf b)) else .error .badMagic
  else .error .formatLength

/-- An operation without operands. -/
def noOperands (i : Instr) (operands : List Byte) : Except DecodeError Instr :=
  if operands = [] then .ok i else .error .operandLength

/-- An operation whose operands take exactly `n` bytes. -/
def fixedOperands (n : Nat) (i : Instr) (operands : List Byte) : Except DecodeError Instr :=
  if operands.length = n then .ok i else .error .operandLength

/-- EPACK's operands: the offset, then a byte whose low two bits are the tag. -/
def decodeEpack (b : List Byte) : Except DecodeError Instr :=
  match b.drop 4 with
  | [t] => if t.toNat < 4 then .ok (.epack (wordOf (b.take 4)) (.ofTag (t.setWidth 2))) else .error .frameTypeTag
  | _ => .error .operandLength

/-- HBUILD's operands: frame rate, width, height and, where it is not omitted, the number of frames
(41_header_codec R145, R147). -/
def decodeHbuild (b : List Byte) : Except DecodeError Instr :=
  if b.length = 8 then
    .ok (.hbuild (wordOf (sliceOf b 0 4)) (halfOf (sliceOf b 4 2)) (halfOf (sliceOf b 6 2)) none)
  else if b.length = 10 then
    .ok (.hbuild (wordOf (sliceOf b 0 4)) (halfOf (sliceOf b 4 2)) (halfOf (sliceOf b 6 2))
      (some (halfOf (sliceOf b 8 2))))
  else .error .operandLength

/-- TVALID's operand: a sequence of 32-bit entries (42_frame_table R163). -/
def decodeTvalid (b : List Byte) : Except DecodeError Instr :=
  if b.length % 4 = 0 then .ok (.tvalid (wordsOf b)) else .error .operandLength

/-- RASM's operands: width, height, then the payload (44_raster_expander R212). -/
def decodeRasm (b : List Byte) : Except DecodeError Instr :=
  if 4 ≤ b.length then .ok (.rasm (b.drop 4) (halfOf (sliceOf b 0 2)) (halfOf (sliceOf b 2 2)))
  else .error .operandLength

/-- REXP's operand, one byte (44_raster_expander R211). -/
def decodeRexp (b : List Byte) : Except DecodeError Instr :=
  match b with
  | [v] => .ok (.rexp v)
  | _ => .error .operandLength

/-- RUN's operands: STREAM_LEN, then the bytes of the STREAM (43_frame_extraction R177; log entry 9). -/
def decodeRun (b : List Byte) : Except DecodeError Instr :=
  if 4 ≤ b.length then .ok (.run (b.drop 4) (wordOf (b.take 4))) else .error .operandLength

/-- Decode a request `(OPSEL, operands)` (30_encoding R105). The byte layout of the operands is the
model's own (log entry 9). -/
def decodeOp (code : BitVec 5) (operands : List Byte) : Except DecodeError Instr :=
  match code.toNat with
  | 0x01 => fixedOperands 4 (.eoff (wordOf operands)) operands
  | 0x02 => fixedOperands 4 (.etype (wordOf operands)) operands
  | 0x03 => decodeEpack operands
  | 0x04 => .ok (.hparse operands)
  | 0x05 => decodeHbuild operands
  | 0x06 => decodeTvalid operands
  | 0x07 => decodeRexp operands
  | 0x08 => decodeRasm operands
  | 0x11 => noOperands .sHdr operands
  | 0x12 => noOperands .sDim operands
  | 0x13 => noOperands .sTread operands
  | 0x14 => noOperands .sTvalid operands
  | 0x15 => noOperands .sSpan operands
  | 0x16 => noOperands .sFetch operands
  | 0x17 => noOperands .sInfl operands
  | 0x18 => noOperands .sExpand operands
  | 0x19 => noOperands .sNext operands
  | 0x1E => noOperands .reset operands
  | 0x1F => decodeRun operands
  | _ => .error (.reservedOpsel code)

/-- Decode a request written as bytes: the OPSEL in the low five bits of the first, then the operands. -/
def decodeRequest : List Byte → Except DecodeError Instr
  | [] => .error .formatLength
  | b :: operands => if b.toNat < 32 then decodeOp (b.setWidth 5) operands else .error .opselByte

/-- The decoder, total on any bytes of any format. -/
def decode : Format → List Byte → Except DecodeError Instr
  | .header, b => decodeHeader b
  | .entry, b => decodeEntry b
  | .opsel, b => decodeRequest b

/-! ## The host's view of the decoder -/

/-- How many operand bytes, all zero, complete a request of an OPSEL code that is given alone (log
entry 10). -/
def zeroOperands (code : BitVec 5) : Nat :=
  match code.toNat with
  | 0x01 | 0x02 | 0x06 | 0x08 | 0x1F => 4
  | 0x03 => 5
  | 0x04 => 28
  | 0x05 => 10
  | 0x07 => 1
  | _ => 0

/-- The format whose words have `nbits` bits: 32 an ENTRY, 224 a HEADER, anything else a request. -/
def formatOf (nbits : Nat) : Format :=
  if nbits = 32 then .entry else if nbits = 224 then .header else .opsel

/-- The bytes of an instruction whose bits are `w`, followed for a request by zero operand bytes. -/
def tableBytes (nbits w : Nat) : List Byte :=
  match formatOf nbits with
  | .entry => leBytes 4 w
  | .header => leBytes 28 w
  | .opsel =>
    leBytes ((nbits + 7) / 8) w ++
      List.replicate (1 + zeroOperands (BitVec.ofNat 5 w) - (nbits + 7) / 8) 0

/-- The instruction the decoder reads from an instruction whose bits are `w`, numbered as
spec/opcode_table.json numbers them. -/
def decodeTableWord (nbits w : Nat) : Option Instr :=
  match decode (formatOf nbits) (tableBytes nbits w) with
  | .ok i => some i
  | .error _ => none

/-! ## The encoder -/

/-- The format an instruction is written in. -/
def Instr.format : Instr → Format
  | .entryEmpty _ | .entryIFrame _ | .entryPFrame _ | .entryIPFrame _ => .entry
  | .header _ => .header
  | .eoff _ | .etype _ | .epack _ _ | .hparse _ | .hbuild _ _ _ _ => .opsel
  | .tvalid _ | .rexp _ | .rasm _ _ _ => .opsel
  | .sHdr | .sDim | .sTread | .sTvalid | .sSpan | .sFetch | .sInfl | .sExpand | .sNext => .opsel
  | .reset | .run _ _ => .opsel

/-- The OPSEL code of an operation (30_encoding R105); a container word has none and answers 0x00,
which is reserved. -/
def Instr.opsel : Instr → BitVec 5
  | .entryEmpty _ | .entryIFrame _ | .entryPFrame _ | .entryIPFrame _ | .header _ => 0x00
  | .eoff _ => 0x01
  | .etype _ => 0x02
  | .epack _ _ => 0x03
  | .hparse _ => 0x04
  | .hbuild _ _ _ _ => 0x05
  | .tvalid _ => 0x06
  | .rexp _ => 0x07
  | .rasm _ _ _ => 0x08
  | .sHdr => 0x11
  | .sDim => 0x12
  | .sTread => 0x13
  | .sTvalid => 0x14
  | .sSpan => 0x15
  | .sFetch => 0x16
  | .sInfl => 0x17
  | .sExpand => 0x18
  | .sNext => 0x19
  | .reset => 0x1E
  | .run _ _ => 0x1F

/-- The operand bytes of a request (log entry 9). -/
def Instr.operands : Instr → List Byte
  | .eoff e => wordBytes e
  | .etype e => wordBytes e
  | .epack offset type => wordBytes offset ++ [type.tag.setWidth 8]
  | .hparse b => b
  | .hbuild r w h none => wordBytes r ++ halfBytes w ++ halfBytes h
  | .hbuild r w h (some n) => wordBytes r ++ halfBytes w ++ halfBytes h ++ halfBytes n
  | .tvalid t => t.flatMap wordBytes
  | .rexp v => [v]
  | .rasm payload w h => halfBytes w ++ halfBytes h ++ payload
  | .run stream streamLen => wordBytes streamLen ++ stream
  | .entryEmpty _ | .entryIFrame _ | .entryPFrame _ | .entryIPFrame _ | .header _ => []
  | .sHdr | .sDim | .sTread | .sTvalid | .sSpan | .sFetch | .sInfl | .sExpand | .sNext => []
  | .reset => []

/-- The bytes of an instruction in its own format (30_encoding R91, R97, R105). -/
def encode (i : Instr) : List Byte :=
  match i with
  | .entryEmpty offset => wordBytes (entryWord offset .empty)
  | .entryIFrame offset => wordBytes (entryWord offset .iFrame)
  | .entryPFrame offset => wordBytes (entryWord offset .pFrame)
  | .entryIPFrame offset => wordBytes (entryWord offset .ipFrame)
  | .header h => headerBytes h
  | .eoff _ | .etype _ | .epack _ _ | .hparse _ | .hbuild _ _ _ _ => i.opsel.setWidth 8 :: i.operands
  | .tvalid _ | .rexp _ | .rasm _ _ _ => i.opsel.setWidth 8 :: i.operands
  | .sHdr | .sDim | .sTread | .sTvalid | .sSpan => i.opsel.setWidth 8 :: i.operands
  | .sFetch | .sInfl | .sExpand | .sNext => i.opsel.setWidth 8 :: i.operands
  | .reset | .run _ _ => i.opsel.setWidth 8 :: i.operands

end Sys2Proof
end

