-- ==== Sys2Proof/Machine/Operands.lean ====
section
/-! DEFINITION. The function operations of EDEC, HDR and REXP as pure functions of their operands
(00_scope R13), and the helper functions `DimOk` and `unpack`. -/

namespace Sys2Proof.Machine

/-! ## EDEC -/

/-- `EOFF(e) = zext_32(e[31:2])` (40_entry_codec R121). -/
def eoff (e : Word) : Word := (entryOffset e).setWidth 32

/-- `ETYPE(e)` (40_entry_codec R122). -/
def etype (e : Word) : FrameType := entryType e

/-- `unpack(e)` (40_entry_codec R123, 30_encoding R109). -/
def unpack (e : Word) : Word × FrameType := (eoff e, etype e)

/-- `EPACK(offset, type)` (40_entry_codec R124, R126). -/
def epack (offset : Word) (type : FrameType) : Except ErrCode Word :=
  if offset > 0x3FFFFFFF then .error .offsetTooLarge
  else .ok ((offset <<< 2) ||| (type.tag.setWidth 32 &&& 3))

/-! ## HDR -/

/-- `HPARSE(b)` on 28 bytes (41_header_codec R142, R143, R144). -/
def hparse (b : List Byte) : Except ErrCode Header :=
  if b.take 12 = Config.magic.toList then .ok (headerOf b) else .error .invalidMagic

/-- HPARSE's stated domain: exactly 28 bytes (30_encoding R106 d, 41_header_codec R142). -/
def hparseDomain (b : List Byte) : Bool := b.length = Config.headerSize

/-- `HBUILD`: MAGIC, the supplied geometry, zero in the reserved fields (41_header_codec R145, R146);
an omitted `num_frames` is 0 (R147). -/
def hbuild (frameRate : Word) (width height : Half) (numFrames : Option Half) : Header where
  magic := Config.magic
  reserved1 := 0
  numFrames := numFrames.getD 0
  reserved2 := 0
  frameRate := frameRate
  width := width
  height := height

/-- `DimOk(w, h)` (41_header_codec R149). -/
def dimOk (w h : Half) : Bool := w.toNat ≥ 1 && h.toNat ≥ 1 && w.toNat * h.toNat % 8 = 0

/-- The payload length `width*height/8` (41_header_codec R152). -/
def payloadLength (w h : Half) : Nat := w.toNat * h.toNat / 8

/-! ## The frame table -/

/-- `TVALID(t)`: the last entry's type is Empty; false for the empty sequence (42_frame_table R163). -/
def tvalid (t : List Word) : Bool :=
  match t.getLast? with
  | none => false
  | some e => etype e = .empty

/-! ## REXP -/

/-- `REXP(v)`: output element `k` is bit `7 - k`, as 0 or 1 (44_raster_expander R210, R211). -/
def rexp (v : Byte) : List Pixel :=
  [7, 6, 5, 4, 3, 2, 1, 0].map fun k => (v.extractLsb' k 1).setWidth 8

/-- RASM's precondition (44_raster_expander R212). -/
def rasmDomain (payload : List Byte) (w h : Half) : Bool :=
  dimOk w h && payload.length = payloadLength w h

/-- `RASM(payload, width, height)`: the expansions of the `width*height/8` bytes, one after the other
(44_raster_expander R212, R213, R214). -/
def rasm (payload : List Byte) (w h : Half) : List Pixel :=
  (payload.take (payloadLength w h)).flatMap rexp

end Sys2Proof.Machine
end

