-- ==== Sys2Proof/Machine/Ops.lean ====
section
/-! DEFINITION. The named operations over the STREAM, the oracles, the registers and the ports; taking
an error (`raise`) and leaving it (RESET); the decisions the sequencer's steps share. -/

namespace Sys2Proof.Machine

/-- A step's three outcomes on this machine. -/
abbrev Result := Host.Outcome State Fault Refusal

/-! ## The STREAM (20_memory R60 to R72) -/

/-- What an unlisted address below STREAM_LEN holds. It only says how a byte 0 is written down: every
byte sequence has exactly one canonical list (log entry 3). -/
def Memory.unlisted : Byte := 0

/-- One byte of the STREAM. -/
def Memory.read : Memory → Nat → Byte
  | [], _ => Memory.unlisted
  | (k, b) :: m, a => if k = a then b else Memory.read m a

/-- The bytes at `a, ..., a+n-1`, lowest address first. -/
def Memory.readBytes (m : Memory) (a : Nat) : Nat → List Byte
  | 0 => []
  | n + 1 => m.read a :: m.readBytes (a + 1) n

/-- The canonical list with one byte changed: the host's only way to place a byte; no step of PDVC
writes the STREAM (20_memory R61). -/
def Memory.write : Memory → Nat → Byte → Memory
  | [], a, v => if v = Memory.unlisted then [] else [(a, v)]
  | (k, b) :: m, a, v =>
    if k < a then (k, b) :: Memory.write m a v
    else if k = a then (if v = Memory.unlisted then m else (a, v) :: m)
    else if v = Memory.unlisted then (k, b) :: m
    else (a, v) :: (k, b) :: m

/-- The canonical list of a byte sequence that starts at address `base`. -/
def Memory.ofBytes (base : Nat) : List Byte → Memory
  | [] => []
  | b :: bs =>
    if b = Memory.unlisted then Memory.ofBytes (base + 1) bs
    else (base, b) :: Memory.ofBytes (base + 1) bs

/-- Addresses strictly rising from `lo`, no entry equal to what an unlisted address reads as. -/
def Memory.wfFrom (lo : Nat) : Memory → Bool
  | [] => true
  | (a, b) :: m => decide (lo ≤ a) && b != Memory.unlisted && Memory.wfFrom (a + 1) m

/-- The canonical form. -/
def Memory.wf (m : Memory) : Bool := m.wfFrom 0

/-- `MemRead(addr, n)` (20_memory R64). -/
def State.memRead (s : State) (addr n : Nat) : ReadAnswer :=
  if addr + n > s.streamLen.toNat then .fail
  else
    match s.ioAnswers.lookup (addr, n) with
    | some .fail => .fail
    | some .never => .never
    | none => .bytes (s.stream.readBytes addr n)

/-- What S_TREAD's reads give: the words, or the index of the first entry that could not be read, or
nothing, ever (42_frame_table R161, R162). -/
inductive TableRead where
  | words (w : List Word)
  | failed (j : Nat)
  | never
  deriving DecidableEq, Repr

/-- The reads `MemRead(28 + 4*j, 4)`, `MemRead(28 + 4*(j+1), 4)`, ..., `count` of them in ascending
order (42_frame_table R161). -/
def State.readEntries (s : State) : (count j : Nat) → TableRead
  | 0, _ => .words []
  | count + 1, j =>
    match s.memRead (Config.headerSize + Config.entrySize * j) Config.entrySize with
    | .never => .never
    | .fail => .failed j
    | .bytes b =>
      match s.readEntries count (j + 1) with
      | .words ws => .words (wordOf b :: ws)
      | .failed k => .failed k
      | .never => .never

/-- `Inflate(b)` (00_scope R6.3, 43_frame_extraction R183): the answer the state lists for `b`, else
the free oracle's. -/
def State.askInflate (s : State) (b : List Byte) : InflateAnswer :=
  match s.inflateAnswers.lookup b with
  | some a => a
  | none =>
    match Config.inflate b with
    | some p => .ok p
    | none => .fail

/-! ## Elements that hold no value (10_state R21, 93 U8) -/

/-- Go on with the value of an element, or stop where it holds none. -/
def needValue {α : Type} (e : Elem) (v : Option α) (k : α → Result) : Result :=
  match v with
  | none => .fault (.noValue e)
  | some x => k x

/-- A host read of a state element: its value, or nothing (10_state R42, 70_reset_and_hazards R268). -/
def State.hostRead (s : State) : Elem → Option ElemValue
  | .hValid => some (.number s.hValid.toNat)
  | .hMagic => s.hMagic.map (.number ·.toNat)
  | .hReserved1 => s.hReserved1.map (.number ·.toNat)
  | .hNumFrames => s.hNumFrames.map (.number ·.toNat)
  | .hReserved2 => s.hReserved2.map (.number ·.toNat)
  | .hFrameRate => s.hFrameRate.map (.number ·.toNat)
  | .hWidth => s.hWidth.map (.number ·.toNat)
  | .hHeight => s.hHeight.map (.number ·.toNat)
  | .table i => s.table[i]?.map (.number ·.toNat)
  | .tLen => s.tLen.map (.number ·.toNat)
  | .tValid => some (.number s.tValid.toNat)
  | .phase => some (.number s.phase.code.toNat)
  | .idx => some (.number s.idx.toNat)
  | .cursor => some (.number s.cursor.toNat)
  | .dataBase => s.dataBase.map (.number ·.toNat)
  | .spanStart => s.spanStart.map (.number ·.toNat)
  | .spanEnd => s.spanEnd.map (.number ·.toNat)
  | .plen => s.plen.map (.number ·.toNat)
  | .framesOut => some (.number s.framesOut.toNat)
  | .cbuf => s.cbuf.map .bytes
  | .pbuf => s.pbuf.map .bytes
  | .raster => s.raster.map .pixels
  | .out => some (.records s.out)
  | .errCode => some (.number s.errCode.code.toNat)
  | .errIndex => some (.optional (s.errIndex.map (·.toNat)))
  | .errOffset => some (.number s.errOffset.toNat)

/-! ## Taking an error, and leaving it -/

/-- `raise E(index, offset)` from the state at the beginning of the step: the error record and
PHASE, and nothing else (60_exceptions R232). -/
def State.raise (s : State) (e : ErrCode) (index : Option Index) (offset : Nat) : State :=
  { s with errCode := e, errIndex := index, errOffset := BitVec.ofNat 32 offset, phase := .error }

/-- RESET, the only way out of ERROR and DONE: every state element takes its reset value
(70_reset_and_hazards R260, 60_exceptions R237). The parameters and the host's ports are no state
elements and stay (10_state R20). -/
def State.toReset (s : State) : State :=
  { State.reset with
    stream := s.stream, streamLen := s.streamLen, ioAnswers := s.ioAnswers,
    inflateAnswers := s.inflateAnswers, emptyFirst := s.emptyFirst,
    inbox := s.inbox, answers := s.answers }

/-! ## The ports -/

/-- The operation port's answer to the host (30_encoding R105). -/
def State.answer (s : State) (a : Answer) : State := { s with answers := s.answers ++ [a] }

/-- `Emit(frame_no, w, h, raster)` (10_state R38). -/
def State.emit (s : State) (frameNo : Nat) (w h : Half) (raster : List Pixel) : State :=
  { s with out := s.out ++ [⟨BitVec.ofNat 16 frameNo, w, h, raster⟩] }

/-- The bytes at STREAM addresses `0 .. n-1`, which are all that a session can read (20_memory R60, R64):
those of the host's STREAM, and a free value at each address that it does not reach (log entry 15). -/
def State.presented (s : State) (stream : List Byte) (n : Nat) : List Byte :=
  stream.take n ++
    (List.range' stream.length (n - stream.length)).map (Config.absentByte s.inbox.length)

/-- START: the session's parameters, and the four elements it writes (43_frame_extraction R177). -/
def State.start (s : State) (stream : List Byte) (streamLen : Word) : State :=
  { s with
    stream := Memory.ofBytes 0 (s.presented stream streamLen.toNat), streamLen := streamLen,
    idx := 0, framesOut := 0, cursor := 0, phase := .sHdr }

/-- The request the host's schedule makes due before the next step of the sequencer. -/
def State.dueRequest (s : State) : Option Request :=
  match s.inbox with
  | [] => none
  | r :: _ => if r.delay = 0 then some r else none

/-- The due request is taken off the port. -/
def State.takeRequest (s : State) : State := { s with inbox := s.inbox.tail }

/-- One step of the machine passes for the request that is still to come. -/
def State.tick (s : State) : State :=
  match s.inbox with
  | [] => s
  | r :: rest => { s with inbox := { r with delay := r.delay - 1 } :: rest }

/-- The operations PDVC performs for the host: the function operations, RESET and RUN. The step
operations are the sequencer's own, and a container word is no request (30_encoding R105). -/
def hostMay (i : Instr) : Bool :=
  match i with
  | .eoff _ | .etype _ | .epack _ _ | .hparse _ | .hbuild _ _ _ _ => true
  | .tvalid _ | .rexp _ | .rasm _ _ _ => true
  | .reset | .run _ _ => true
  | .sHdr | .sDim | .sTread | .sTvalid | .sSpan | .sFetch | .sInfl | .sExpand | .sNext => false
  | .entryEmpty _ | .entryIFrame _ | .entryPFrame _ | .entryIPFrame _ | .header _ => false

/-! ## What the sequencer's steps share -/

/-- The writes of S_HDR for a header whose magic matched (41_header_codec R150). -/
def State.latchHeader (s : State) (h : Header) : State :=
  { s with
    hMagic := some (BitVec.ofNat 96 (le h.magic.toList)), hReserved1 := some h.reserved1,
    hNumFrames := some h.numFrames, hReserved2 := some h.reserved2,
    hFrameRate := some h.frameRate, hWidth := some h.width, hHeight := some h.height,
    hValid := true, cursor := BitVec.ofNat 32 Config.headerSize, phase := .sDim }

/-- S_HDR's verdict on a 28-byte record: latch it, or reject its magic (41_header_codec R150). -/
def State.acceptHeader (s : State) (h : Except ErrCode Header) : State :=
  match h with
  | .ok h => s.latchHeader h
  | .error e => s.raise e none 0

/-- `28 + 4*n`: where entry `n` would stand, and DATA_BASE for a table of `n` (20_memory R66, R67). -/
def entryAddress (n : Nat) : Nat := Config.headerSize + Config.entrySize * n

/-- The writes of S_TREAD for the words read (42_frame_table R161). -/
def State.latchTable (s : State) (words : List Word) (n : Nat) : State :=
  { s with
    table := words, tLen := some (BitVec.ofNat 17 n), tValid := true,
    dataBase := some (BitVec.ofNat 32 (entryAddress n)), cursor := BitVec.ofNat 32 (entryAddress n),
    phase := .sTvalid }

/-- `TABLE[0 .. n-1]`, where each of its words holds a value (10_state R27). -/
def State.heldTable (s : State) (n : Nat) : Option (List Word) :=
  if n ≤ s.table.length then some (s.table.take n) else none

/-- S_TVALID's two ways out (42_frame_table R164, R165): `valid` is TVALID's answer on a table of `n`
entries. The address is `28 + 4*(n-1)`. -/
def State.checkTerminator (s : State) (valid : Bool) (n : Index) : State :=
  if valid then { s with phase := if n.toNat = 1 then .done else .sSpan }
  else s.raise .malformedTable none (entryAddress n.toNat - Config.entrySize)

/-- S_SPAN's range resolution and its two tests, in natural numbers (43_frame_extraction R179 to R181). -/
def State.resolveSpan (s : State) (dataBase startOffset endOffset : Word) : State :=
  if dataBase.toNat + endOffset.toNat < dataBase.toNat + startOffset.toNat then
    s.raise .invalidRange (some s.idx) (dataBase.toNat + startOffset.toNat)
  else if dataBase.toNat + endOffset.toNat > s.streamLen.toNat then
    s.raise .invalidRange (some s.idx) (dataBase.toNat + startOffset.toNat)
  else
    { s with
      spanStart := some (BitVec.ofNat 32 (dataBase.toNat + startOffset.toNat)),
      spanEnd := some (BitVec.ofNat 32 (dataBase.toNat + endOffset.toNat)),
      phase := .sFetch }

/-- S_NEXT's decision on the type of `TABLE[IDX+1]` in a table of `n` entries
(43_frame_extraction R187); `IDX + 1 = T_LEN - 1` is written `IDX + 2 = T_LEN`. -/
def State.advance (s : State) (t : FrameType) (n : Index) : State :=
  if t = .empty ∧ s.idx.toNat + 2 ≠ n.toNat then { s with phase := .done }
  else if s.idx.toNat + 2 = n.toNat then { s with phase := .done }
  else { s with idx := s.idx + 1, phase := .sSpan }

/-- `raise E(IDX, SPAN_START)` (43_frame_extraction R182, R183). -/
def raiseAtSpan (s : State) (e : ErrCode) : Result :=
  needValue .spanStart s.spanStart fun a => .next (s.raise e (some s.idx) a.toNat)

/-- With EMPTY_FIRST_ENTRY = refuse, a session whose TABLE[0] is Empty-typed has no step after
S_TVALID: stuck, not an error (00_scope R8, log entry 6). -/
def State.heldBack (s : State) : Bool :=
  decide (s.emptyFirst = .refuse) && decide (s.phase = .sSpan) &&
    (match s.table with
     | [] => false
     | e :: _ => decide (etype e = .empty))

end Sys2Proof.Machine
end

