-- ==== Sys2Proof/Machine/Commands.lean ====
section
/-! DEFINITION. The two commands: RESET (70_reset_and_hazards R260) and RUN, the START command
(43_frame_extraction R177, R188). -/

namespace Sys2Proof.Machine

/-- RESET, accepted in every STATUS (70_reset_and_hazards R260). -/
def execReset (s : State) : Result := .next s.toReset

/-- RUN: START where PHASE is IDLE, and the sequencer performs the rest of the session; elsewhere it is
refused (43_frame_extraction R177, R188; 30_encoding R106 c). PHASE alone decides, whatever STREAM and
STREAM_LEN are (log entry 15). -/
def execRun (stream : List Byte) (streamLen : Word) (s : State) : Result :=
  .next (if s.phase = .idle then s.start stream streamLen else s.answer .refused)

end Sys2Proof.Machine
end

