-- ==== Sys2Proof/Machine/ContainerWords.lean ====
section
/-! DEFINITION. What the decode path does with the container's own words, where each stands: an ENTRY
(30_encoding R98) and a HEADER (41_header_codec R142, R150). -/

namespace Sys2Proof.Machine

/-- What the decode path does with an ENTRY of this offset and type, as the entry its PHASE consults:
the last entry in S_TVALID (42_frame_table R164), the entry `IDX + 1` in S_SPAN (43_frame_extraction
R179) and in S_NEXT (R187). In every other PHASE no entry is consulted by itself, and it does nothing
(log entry 11). -/
def consultEntry (offset : BitVec 30) (type : FrameType) (s : State) : Result :=
  match s.phase with
  | .sTvalid => needValue .tLen s.tLen fun n => .next (s.checkTerminator (type = .empty) n)
  | .sSpan =>
    needValue .dataBase s.dataBase fun base =>
    needValue (.table s.idx.toNat) s.table[s.idx.toNat]? fun e =>
    .next (s.resolveSpan base (eoff e) (offset.setWidth 32))
  | .sNext => needValue .tLen s.tLen fun n => .next (s.advance type n)
  | .idle | .sHdr | .sDim | .sTread | .sFetch | .sInfl | .sExpand | .done | .error => .next s

/-- ENTRY.Empty: the terminator at the last index, an early terminator elsewhere (30_encoding R98). -/
def execEntryEmpty (offset : BitVec 30) (s : State) : Result := consultEntry offset .empty s

/-- ENTRY.IFrame: its type is never consulted but as not Empty (30_encoding R98). -/
def execEntryIFrame (offset : BitVec 30) (s : State) : Result := consultEntry offset .iFrame s

/-- ENTRY.PFrame: as ENTRY.IFrame, no delta reconstruction (30_encoding R98). -/
def execEntryPFrame (offset : BitVec 30) (s : State) : Result := consultEntry offset .pFrame s

/-- ENTRY.IPFrame: as ENTRY.IFrame, no delta reconstruction (30_encoding R98). -/
def execEntryIPFrame (offset : BitVec 30) (s : State) : Result := consultEntry offset .ipFrame s

/-- HEADER: in S_HDR, the one PHASE that reads a header, the record is latched or its magic rejected
(41_header_codec R143, R150); in every other PHASE it is not read (20_memory R71; log entry 11). -/
def execHeader (h : Header) (s : State) : Result :=
  if s.phase = .sHdr then
    .next (s.acceptHeader (if h.magic = Config.magic then .ok h else .error .invalidMagic))
  else .next s

end Sys2Proof.Machine
end

