-- ==== Sys2Proof/Machine/Functions.lean ====
section
/-! DEFINITION. The function operations EOFF, ETYPE, EPACK, HPARSE, HBUILD, TVALID, REXP and RASM as the
host presents them: each answers on the operation port and changes no state element (00_scope R13,
30_encoding R105, R106). -/

namespace Sys2Proof.Machine

/-- EOFF (40_entry_codec R121). -/
def execEoff (e : Word) (s : State) : Result := .next (s.answer (.word (eoff e)))

/-- ETYPE (40_entry_codec R122). -/
def execEtype (e : Word) (s : State) : Result := .next (s.answer (.frameType (etype e)))

/-- EPACK (40_entry_codec R124); OffsetTooLarge is its answer and touches nothing else (R126). -/
def execEpack (offset : Word) (type : FrameType) (s : State) : Result :=
  .next (s.answer (match epack offset type with
    | .ok w => .word w
    | .error e => .error e))

/-- HPARSE (41_header_codec R142); other than 28 bytes is refused (30_encoding R106 d). -/
def execHparse (b : List Byte) (s : State) : Result :=
  .next (s.answer (if hparseDomain b then
      (match hparse b with
       | .ok h => .header h
       | .error e => .error e)
    else .refused))

/-- HBUILD answers with the 28 bytes of the header it builds (41_header_codec R145). -/
def execHbuild (frameRate : Word) (width height : Half) (numFrames : Option Half) (s : State) : Result :=
  .next (s.answer (.bytes (headerBytes (hbuild frameRate width height numFrames))))

/-- TVALID (42_frame_table R163). -/
def execTvalid (t : List Word) (s : State) : Result := .next (s.answer (.bool (tvalid t)))

/-- REXP (44_raster_expander R211). -/
def execRexp (v : Byte) (s : State) : Result := .next (s.answer (.pixels (rexp v)))

/-- RASM; outside its precondition it is refused (44_raster_expander R212). -/
def execRasm (payload : List Byte) (w h : Half) (s : State) : Result :=
  .next (s.answer (if rasmDomain payload w h then .pixels (rasm payload w h) else .refused))

end Sys2Proof.Machine
end

