-- ==== Sys2Proof/Machine/Sequencer.lean ====
section
/-! DEFINITION. The step operations of HDR and FSEQ: S_HDR, S_DIM, S_TREAD, S_TVALID, S_SPAN, S_FETCH,
S_INFL, S_EXPAND, S_NEXT. A step whose read or Inflate request is never answered does not complete and
the state stays as it is (93 U12, 70_reset_and_hazards R273). -/

namespace Sys2Proof.Machine

/-- S_HDR (41_header_codec R150, R151). -/
def execSHdr (s : State) : Result :=
  .next (match s.memRead 0 Config.headerSize with
    | .never => s
    | .fail => s.raise .ioError none 0
    | .bytes b => s.acceptHeader (hparse b))

/-- S_DIM (41_header_codec R152). -/
def execSDim (s : State) : Result :=
  needValue .hWidth s.hWidth fun w =>
  needValue .hHeight s.hHeight fun h =>
  .next (if dimOk w h then { s with plen := some (BitVec.ofNat 32 (payloadLength w h)), phase := .sTread }
    else s.raise .invalidDimensions none 24)

/-- S_TREAD (42_frame_table R161, R162). -/
def execSTread (s : State) : Result :=
  needValue .hNumFrames s.hNumFrames fun n =>
  .next (match s.readEntries (n.toNat + 1) 0 with
    | .never => s
    | .failed j => s.raise .ioError none (entryAddress j)
    | .words ws => s.latchTable ws (n.toNat + 1))

/-- S_TVALID (42_frame_table R164). -/
def execSTvalid (s : State) : Result :=
  needValue .tLen s.tLen fun n =>
  needValue (.table (n.toNat - 1)) (s.heldTable n.toNat) fun t =>
  .next (s.checkTerminator (tvalid t) n)

/-- S_SPAN (43_frame_extraction R179). -/
def execSSpan (s : State) : Result :=
  needValue .dataBase s.dataBase fun base =>
  needValue (.table s.idx.toNat) s.table[s.idx.toNat]? fun e =>
  needValue (.table (s.idx.toNat + 1)) s.table[s.idx.toNat + 1]? fun e' =>
  .next (s.resolveSpan base (eoff e) (eoff e'))

/-- S_FETCH (43_frame_extraction R182). -/
def execSFetch (s : State) : Result :=
  needValue .spanStart s.spanStart fun a =>
  needValue .spanEnd s.spanEnd fun z =>
  if z.toNat < a.toNat then .fault .spanReversed
  else .next (match s.memRead a.toNat (z.toNat - a.toNat) with
    | .never => s
    | .fail => s.raise .ioError (some s.idx) a.toNat
    | .bytes b => { s with cbuf := some b, cursor := z, phase := .sInfl })

/-- S_INFL (43_frame_extraction R183, R184). PLEN is read where Inflate has answered with a payload, and
SPAN_START where CorruptFrame is raised. -/
def execSInfl (s : State) : Result :=
  needValue .cbuf s.cbuf fun c =>
  match s.askInflate c with
  | .never => .next s
  | .fail => raiseAtSpan s .corruptFrame
  | .ok p =>
    needValue .plen s.plen fun n =>
    if p.length = n.toNat then .next { s with pbuf := some p, phase := .sExpand }
    else raiseAtSpan s .corruptFrame

/-- S_EXPAND (43_frame_extraction R185). -/
def execSExpand (s : State) : Result :=
  needValue .pbuf s.pbuf fun p =>
  needValue .hWidth s.hWidth fun w =>
  needValue .hHeight s.hHeight fun h =>
  if rasmDomain p w h then
    .next { s.emit (s.idx.toNat + 1) w h (rasm p w h) with
      raster := some (rasm p w h), framesOut := s.framesOut + 1, phase := .sNext }
  else .fault .rasmPrecondition

/-- S_NEXT (43_frame_extraction R187). -/
def execSNext (s : State) : Result :=
  needValue (.table (s.idx.toNat + 1)) s.table[s.idx.toNat + 1]? fun e =>
  needValue .tLen s.tLen fun n =>
  .next (s.advance (etype e) n)

end Sys2Proof.Machine
end

