-- ==== Sys2Proof/Machine/Dispatch.lean ====
section
/-! DEFINITION. One arm for each instruction. -/

namespace Sys2Proof.Machine

def exec (i : Instr) (s : State) : Host.Outcome State Fault Refusal :=
  match i with
  | .entryEmpty offset => Sys2Proof.Machine.execEntryEmpty offset s
  | .entryIFrame offset => Sys2Proof.Machine.execEntryIFrame offset s
  | .entryPFrame offset => Sys2Proof.Machine.execEntryPFrame offset s
  | .entryIPFrame offset => Sys2Proof.Machine.execEntryIPFrame offset s
  | .header h => Sys2Proof.Machine.execHeader h s
  | .eoff e => Sys2Proof.Machine.execEoff e s
  | .etype e => Sys2Proof.Machine.execEtype e s
  | .epack offset type => Sys2Proof.Machine.execEpack offset type s
  | .hparse b => Sys2Proof.Machine.execHparse b s
  | .hbuild r w h n => Sys2Proof.Machine.execHbuild r w h n s
  | .tvalid t => Sys2Proof.Machine.execTvalid t s
  | .rexp v => Sys2Proof.Machine.execRexp v s
  | .rasm p w h => Sys2Proof.Machine.execRasm p w h s
  | .sHdr => Sys2Proof.Machine.execSHdr s
  | .sDim => Sys2Proof.Machine.execSDim s
  | .sTread => Sys2Proof.Machine.execSTread s
  | .sTvalid => Sys2Proof.Machine.execSTvalid s
  | .sSpan => Sys2Proof.Machine.execSSpan s
  | .sFetch => Sys2Proof.Machine.execSFetch s
  | .sInfl => Sys2Proof.Machine.execSInfl s
  | .sExpand => Sys2Proof.Machine.execSExpand s
  | .sNext => Sys2Proof.Machine.execSNext s
  | .reset => Sys2Proof.Machine.execReset s
  | .run stream streamLen => Sys2Proof.Machine.execRun stream streamLen s

end Sys2Proof.Machine
end

