-- ==== Sys2Proof/Machine/Fetch.lean ====
section
/-! DEFINITION. Where the next instruction comes from: a request of the host that is due, or the step
operation PHASE names; and how one is placed there. -/

namespace Sys2Proof.Machine

/-- The instruction the sequencer fetches: the code `0x10 | PHASE`, decoded. In IDLE, DONE and ERROR the
code is reserved and there is none (10_state R31, 30_encoding R105, 43_frame_extraction R188). -/
def State.sequencerInstr (s : State) : Option Instr :=
  if s.heldBack then none
  else
    match decodeOp s.phase.opsel [] with
    | .ok i => some i
    | .error _ => none

/-- The sequencer's turn: it performs the step operation its PHASE names, or, having none, leaves the
state as it is (10_state R31: "stays"; 43_frame_extraction R188). -/
def sequence (s : State) : Result :=
  match s.sequencerInstr with
  | some i => exec i s
  | none => .next s

/-- The host's turn: a request that decodes to an operation PDVC performs for the host is performed; any
other is answered `refused` and changes nothing (30_encoding R105, R106). -/
def serve (r : Request) (s : State) : Result :=
  match decodeOp r.opsel r.operands with
  | .ok i => if hostMay i then exec i s else .next (s.answer .refused)
  | .error _ => .next (s.answer .refused)

/-! ## Placing an instruction (log entry 10) -/

/-- A held header, where there is none: 8 by 1 pixels, one frame. -/
def State.holdHeader (s : State) : State :=
  if s.hValid then s else s.latchHeader (hbuild 0 8 1 (some 1))

/-- PLEN, where it holds no value. -/
def State.holdPlen (s : State) : State := { s with plen := some (s.plen.getD 1) }

/-- A held table, where there is none: one frame of a zero-length span, and the terminator. -/
def State.holdTable (s : State) : State := if s.tValid then s else s.latchTable [0x1, 0x0] 2

/-- The span of the frame, where there is none. -/
def State.holdSpan (s : State) : State :=
  { s with spanStart := some (s.spanStart.getD 36), spanEnd := some (s.spanEnd.getD 36) }

/-- CBUF and an Inflate that answers for it, where CBUF holds no value. -/
def State.holdCbuf (s : State) : State :=
  match s.cbuf with
  | some _ => s
  | none => { s with cbuf := some [], inflateAnswers := ([], .ok [0]) :: s.inflateAnswers }

/-- PBUF, where it holds no value. -/
def State.holdPbuf (s : State) : State := { s with pbuf := some (s.pbuf.getD [0]) }

/-- The sequencer stands at PHASE `p`, which it reaches only after the earlier steps: the elements
they wrote and step `p` reads get a value where they hold none. -/
def State.atPhase (s : State) (p : Phase) : State :=
  let t : State :=
    match p with
    | .idle | .sHdr | .done | .error => s
    | .sDim => s.holdHeader
    | .sTread => s.holdHeader.holdPlen
    | .sTvalid | .sSpan | .sNext => s.holdHeader.holdPlen.holdTable
    | .sFetch => s.holdHeader.holdPlen.holdTable.holdSpan
    | .sInfl => s.holdHeader.holdPlen.holdTable.holdSpan.holdCbuf
    | .sExpand => s.holdHeader.holdPlen.holdTable.holdSpan.holdCbuf.holdPbuf
  { t with phase := p, emptyFirst := .process, inbox := [] }

/-- The PHASE whose step operation has this OPSEL code (30_encoding R105). -/
def stepPhase (code : BitVec 5) : Option Phase :=
  match code.toNat with
  | 0x11 => some .sHdr
  | 0x12 => some .sDim
  | 0x13 => some .sTread
  | 0x14 => some .sTvalid
  | 0x15 => some .sSpan
  | 0x16 => some .sFetch
  | 0x17 => some .sInfl
  | 0x18 => some .sExpand
  | 0x19 => some .sNext
  | _ => none

/-- A HEADER stands at STREAM address 0 and the sequencer at S_HDR, which reads it. -/
def State.placeHeader (s : State) (b : List Byte) : State :=
  { s with
    stream := Memory.ofBytes 0 b, streamLen := BitVec.ofNat 32 b.length, ioAnswers := [],
    inbox := [], phase := .sHdr }

/-- An ENTRY stands at index 1 of a table of three and the sequencer at S_NEXT of frame 0, which
consults it. -/
def State.placeEntry (s : State) (b : List Byte) : State :=
  { s.holdHeader.holdPlen.latchTable [0x1, wordOf b, 0x0] 3 with idx := 0, inbox := [], phase := .sNext }

/-- A request stands first on the port, due at once; a step code is the sequencer's to perform. -/
def State.placeRequest (s : State) (b : List Byte) : State :=
  match b with
  | [] => s
  | c :: operands =>
    match stepPhase (c.setWidth 5) with
    | some p => s.atPhase p
    | none => { s with inbox := ⟨0, c.setWidth 5, operands⟩ :: s.inbox }

/-- The instruction of these bytes placed where the next step takes it from. -/
def State.place (s : State) (f : Format) (b : List Byte) : State :=
  match f with
  | .header => s.placeHeader b
  | .entry => s.placeEntry b
  | .opsel => s.placeRequest b

end Sys2Proof.Machine
end

