-- ==== Sys2Proof/Machine/Step.lean ====
section
/-! DEFINITION. One step of the machine: the host's request that is due, else the sequencer's turn. -/

namespace Sys2Proof.Machine

/-- One step: a request of the host that is due is served between two steps of the sequencer
(70_reset_and_hazards R260); otherwise the sequencer has its turn (43_frame_extraction R188). -/
def step (s : State) : Host.Outcome State Fault Refusal :=
  match s.dueRequest with
  | some r => serve r s.takeRequest
  | none => sequence s.tick

/-- `s` with the instruction whose bits are `w` where the next step takes it from (log entry 10). -/
def State.withFetchWord (s : State) (nbits w : Nat) : State :=
  s.place (formatOf nbits) (tableBytes nbits w)

end Sys2Proof.Machine
end

