-- ==== Sys2Proof/Safety.lean ====
section
/-! DEFINITION. What holds of every state a session can reach (10_state R46, with what its steps need
to keep it), and the premises a claim about the end of a run takes. -/

namespace Sys2Proof.Machine

/-- S_DIM to S_NEXT, and DONE (10_state R46 item 1). -/
def Phase.afterHeader : Phase → Bool
  | .sDim | .sTread | .sTvalid | .sSpan | .sFetch | .sInfl | .sExpand | .sNext | .done => true
  | .idle | .sHdr | .error => false

/-- S_TREAD to S_NEXT, and DONE (10_state R46 item 2). -/
def Phase.afterDim : Phase → Bool
  | .sTread | .sTvalid | .sSpan | .sFetch | .sInfl | .sExpand | .sNext | .done => true
  | .idle | .sHdr | .sDim | .error => false

/-- S_TVALID to S_NEXT, and DONE (10_state R46 item 3). -/
def Phase.afterTable : Phase → Bool
  | .sTvalid | .sSpan | .sFetch | .sInfl | .sExpand | .sNext | .done => true
  | .idle | .sHdr | .sDim | .sTread | .error => false

/-- S_SPAN to S_NEXT, and DONE (10_state R46 item 4). -/
def Phase.afterTerminator : Phase → Bool
  | .sSpan | .sFetch | .sInfl | .sExpand | .sNext | .done => true
  | .idle | .sHdr | .sDim | .sTread | .sTvalid | .error => false

/-- S_SPAN to S_NEXT (10_state R46 item 5). -/
def Phase.inLoop : Phase → Bool
  | .sSpan | .sFetch | .sInfl | .sExpand | .sNext => true
  | .idle | .sHdr | .sDim | .sTread | .sTvalid | .done | .error => false

/-- S_FETCH to S_NEXT: the span of frame IDX is resolved. -/
def Phase.afterSpan : Phase → Bool
  | .sFetch | .sInfl | .sExpand | .sNext => true
  | .idle | .sHdr | .sDim | .sTread | .sTvalid | .sSpan | .done | .error => false

/-- S_INFL to S_NEXT: the span of frame IDX is in CBUF. -/
def Phase.afterFetch : Phase → Bool
  | .sInfl | .sExpand | .sNext => true
  | .idle | .sHdr | .sDim | .sTread | .sTvalid | .sSpan | .sFetch | .done | .error => false

/-- S_EXPAND and S_NEXT: the payload of frame IDX is in PBUF. -/
def Phase.afterInflate : Phase → Bool
  | .sExpand | .sNext => true
  | .idle | .sHdr | .sDim | .sTread | .sTvalid | .sSpan | .sFetch | .sInfl | .done | .error => false

/-- IDLE to S_TREAD: the table is still to be read. -/
def Phase.beforeTable : Phase → Bool
  | .idle | .sHdr | .sDim | .sTread => true
  | .sTvalid | .sSpan | .sFetch | .sInfl | .sExpand | .sNext | .done | .error => false

/-- IDLE to S_TVALID: no frame has been begun. -/
def Phase.beforeLoop : Phase → Bool
  | .idle | .sHdr | .sDim | .sTread | .sTvalid => true
  | .sSpan | .sFetch | .sInfl | .sExpand | .sNext | .done | .error => false

/-- The H_* elements hold the fields of a header whose magic matched (10_state R21, R22). -/
def State.HeaderHeld (s : State) : Prop :=
  ∃ h : Header, h.magic = Config.magic ∧ s.hMagic = some (BitVec.ofNat 96 (le h.magic.toList)) ∧
    s.hReserved1 = some h.reserved1 ∧ s.hNumFrames = some h.numFrames ∧
    s.hReserved2 = some h.reserved2 ∧ s.hFrameRate = some h.frameRate ∧
    s.hWidth = some h.width ∧ s.hHeight = some h.height

/-- The H_* elements hold no value (10_state R21). -/
def State.NoHeader (s : State) : Prop :=
  s.hMagic = none ∧ s.hReserved1 = none ∧ s.hNumFrames = none ∧ s.hReserved2 = none ∧
    s.hFrameRate = none ∧ s.hWidth = none ∧ s.hHeight = none

/-- PLEN holds the payload length of a geometry that S_DIM passed (10_state R26, R35). -/
def State.DimsHeld (s : State) : Prop :=
  ∃ w h, s.hWidth = some w ∧ s.hHeight = some h ∧ dimOk w h = true ∧
    s.plen = some (BitVec.ofNat 32 (payloadLength w h))

/-- The table holds `H_NUMFRAMES + 1` entries (10_state R28, R46 item 3). -/
def State.TableHeld (s : State) : Prop :=
  ∃ n : Half, s.hNumFrames = some n ∧ s.table.length = n.toNat + 1 ∧
    s.tLen = some (BitVec.ofNat 17 (n.toNat + 1)) ∧
    s.dataBase = some (BitVec.ofNat 32 (28 + 4 * (n.toNat + 1)))

/-- The table and what S_TREAD writes beside it hold no value (10_state R27). -/
def State.NoTable (s : State) : Prop := s.table = [] ∧ s.tLen = none ∧ s.dataBase = none

/-- SPAN_START and SPAN_END are the bounds of frame IDX's span, in order and inside the STREAM
(43_frame_extraction R179 to R181). -/
def State.SpanHeld (s : State) : Prop :=
  ∃ b e e' a z, s.dataBase = some b ∧ s.table[s.idx.toNat]? = some e ∧
    s.table[s.idx.toNat + 1]? = some e' ∧ s.spanStart = some a ∧ s.spanEnd = some z ∧
    a.toNat = b.toNat + (eoff e).toNat ∧ z.toNat = b.toNat + (eoff e').toNat ∧
    a.toNat ≤ z.toNat ∧ z.toNat ≤ s.streamLen.toNat

/-- CBUF holds as many bytes as the span has (10_state R37). -/
def State.CbufHeld (s : State) : Prop :=
  ∃ c a z, s.cbuf = some c ∧ s.spanStart = some a ∧ s.spanEnd = some z ∧
    c.length = z.toNat - a.toNat

/-- PBUF holds PLEN bytes (10_state R37). -/
def State.PbufHeld (s : State) : Prop :=
  ∃ p n, s.pbuf = some p ∧ s.plen = some n ∧ p.length = n.toNat

/-- OUT holds one record for each frame counted, numbered from 1, each a whole raster of the held
geometry (10_state R38, R46 item 6; 44_raster_expander R210). -/
def State.OutNumbered (s : State) : Prop :=
  s.framesOut.toNat = s.out.length ∧
    ∀ j r, s.out[j]? = some r →
      r.frameNo.toNat = j + 1 ∧ s.hWidth = some r.width ∧ s.hHeight = some r.height ∧
        r.raster.length = r.width.toNat * r.height.toNat ∧ ∀ x ∈ r.raster, x = 0 ∨ x = 1

/-- The STREAM is in canonical form and lists no address at or beyond STREAM_LEN. -/
def State.StreamCanonical (s : State) : Prop :=
  s.stream.wf = true ∧ ∀ c ∈ s.stream, c.1 < s.streamLen.toNat

/-- What holds of every state a session can reach (10_state R46). -/
structure State.Inv (s : State) : Prop where
  /-- 10_state R46 item 1. -/
  headerValid : s.phase.afterHeader = true → s.hValid = true
  headerHeld : s.hValid = true → s.HeaderHeld
  noHeader : s.hValid = false → s.NoHeader
  /-- 10_state R46 item 2. -/
  dims : s.phase.afterDim = true → s.DimsHeld
  /-- 10_state R46 item 3. -/
  tableValid : s.phase.afterTable = true → s.tValid = true
  tableHeld : s.tValid = true → s.TableHeld
  noTable : s.tValid = false → s.NoTable
  /-- 10_state R28: S_TREAD sets T_VALID. -/
  tableToCome : s.phase.beforeTable = true → s.tValid = false
  /-- 10_state R46 item 4. -/
  terminator : s.phase.afterTerminator = true → tvalid s.table = true
  /-- 10_state R46 item 5: `IDX <= T_LEN - 2`. -/
  index : s.phase.inLoop = true → s.idx.toNat + 2 ≤ s.table.length
  span : s.phase.afterSpan = true → s.SpanHeld
  cbuf : s.phase.afterFetch = true → s.CbufHeld
  pbuf : s.phase.afterInflate = true → s.PbufHeld
  /-- 10_state R46 item 6. -/
  outNumbered : s.OutNumbered
  /-- 10_state R36: before the loop no frame is out and IDX is 0. -/
  countBefore : s.phase.beforeLoop = true → s.framesOut = 0 ∧ s.idx = 0
  /-- 10_state R36: from S_SPAN to S_EXPAND, FRAMES_OUT equals IDX. -/
  countLoop : s.phase.inLoop = true → s.phase ≠ .sNext → s.framesOut.toNat = s.idx.toNat
  countNext : s.phase = .sNext → s.framesOut.toNat = s.idx.toNat + 1
  /-- 60_exceptions R236: at ERROR, FRAMES_OUT equals IDX. -/
  countError : s.phase = .error → s.framesOut.toNat = s.idx.toNat
  /-- 43_frame_extraction R187: at DONE after at least one frame, FRAMES_OUT is IDX + 1. -/
  countDone : s.phase = .done → s.framesOut = 0 ∨ s.framesOut.toNat = s.idx.toNat + 1
  /-- 10_state R46 item 7. -/
  errorCode : s.phase = .error ↔ s.errCode ≠ .none
  /-- 10_state R40: no session writes OffsetTooLarge. -/
  errorNotPack : s.errCode ≠ .offsetTooLarge
  errorFresh : s.phase ≠ .error → s.errIndex = none ∧ s.errOffset = 0
  /-- 10_state R46 item 8. -/
  doneBound : s.phase = .done → ∃ n, s.hNumFrames = some n ∧ s.framesOut.toNat ≤ n.toNat
  /-- 43_frame_extraction R177: a session starts from the reset state. -/
  idleReset : s.phase = .idle → s.toReset = s
  canonical : s.StreamCanonical

/-- Every read and every Inflate request is answered (43_frame_extraction R189, 70_reset_and_hazards
R271, R273). -/
def State.Answering (s : State) : Prop :=
  (∀ x ∈ s.ioAnswers, x.2 ≠ IoAnswer.never) ∧ ∀ x ∈ s.inflateAnswers, x.2 ≠ InflateAnswer.never

end Sys2Proof.Machine
end

