-- ==== Sys2Proof/Certificates/Slice0/Obligations.lean ====
section
/-! DEFINITION. The statements, each from the numbered rules of spec/. The words they are written in
(`Claim.…`) read the spec's tables and formulas anew and do not go through the model's own helpers. -/

open Sys2Proof Sys2Proof.Machine

namespace Sys2Proof.Claim

/-- The number of a frame type (40_entry_codec R120). -/
def tagNumber : FrameType → Nat
  | .empty => 0
  | .iFrame => 1
  | .pFrame => 2
  | .ipFrame => 3

/-- The frame type of a number modulo 4 (40_entry_codec R120, R122). -/
def typeNumbered (n : Nat) : FrameType :=
  if n % 4 = 0 then .empty else if n % 4 = 1 then .iFrame else if n % 4 = 2 then .pFrame else .ipFrame

/-- The little-endian bytes of a 32-bit field, lowest address first (00_scope R10). -/
def bytes4 (w : Word) : List Byte :=
  [w.extractLsb' 0 8, w.extractLsb' 8 8, w.extractLsb' 16 8, w.extractLsb' 24 8]

/-- The little-endian bytes of a 16-bit field, lowest address first (00_scope R10). -/
def bytes2 (h : Half) : List Byte := [h.extractLsb' 0 8, h.extractLsb' 8 8]

/-- Byte `k` of a byte string, as a number. -/
def at' (b : List Byte) (k : Nat) : Nat := (b.getD k 0).toNat

/-- The u16 at bytes `k`, `k+1` (30_encoding R91). -/
def u16 (b : List Byte) (k : Nat) : Half := BitVec.ofNat 16 (at' b k + 2 ^ 8 * at' b (k + 1))

/-- The u32 at bytes `k` to `k+3` (30_encoding R91). -/
def u32 (b : List Byte) (k : Nat) : Word :=
  BitVec.ofNat 32 (at' b k + 2 ^ 8 * at' b (k + 1) + 2 ^ 16 * at' b (k + 2) + 2 ^ 24 * at' b (k + 3))

/-- The bytes `STREAM[a], ..., STREAM[a+n-1]`. -/
def span (s : State) (a n : Nat) : List Byte := (List.range n).map fun k => s.stream.read (a + k)

/-- The read lies inside the STREAM, and the oracle neither fails it nor leaves it unanswered. -/
def Readable (s : State) (a n : Nat) : Prop :=
  a + n ≤ s.streamLen.toNat ∧ s.ioAnswers.lookup (a, n) = none

/-- The read passes STREAM_LEN, or the IoFail oracle fails it (20_memory R64). -/
def Unreadable (s : State) (a n : Nat) : Prop :=
  s.streamLen.toNat < a + n ∨ s.ioAnswers.lookup (a, n) = some .fail

/-- The dimension invariant, in natural numbers (41_header_codec R149). -/
def DimsGood (w h : Half) : Prop := 1 ≤ w.toNat ∧ 1 ≤ h.toNat ∧ w.toNat * h.toNat % 8 = 0

/-- The pixel of bit `j` of a payload, most significant bit first, as a raster element
(44_raster_expander R210, R212). -/
def pixel (payload : List Byte) (j : Nat) : Pixel :=
  if (payload.getD (j / 8) 0).getLsbD (7 - j % 8) then 1 else 0

/-- The nine step operations (30_encoding R105). -/
def stepOps : List Instr :=
  [.sHdr, .sDim, .sTread, .sTvalid, .sSpan, .sFetch, .sInfl, .sExpand, .sNext]

/-- The PHASE a successful step leads to (10_state R31). -/
def successors : Phase → List Phase
  | .sHdr => [.sDim]
  | .sDim => [.sTread]
  | .sTread => [.sTvalid]
  | .sTvalid => [.sSpan, .done]
  | .sSpan => [.sFetch]
  | .sFetch => [.sInfl]
  | .sInfl => [.sExpand]
  | .sExpand => [.sNext]
  | .sNext => [.sSpan, .done]
  | .idle | .done | .error => []

/-- The STREAM addresses the step of this PHASE reads (20_memory R71). -/
def Reads (s : State) (a : Nat) : Prop :=
  match s.phase with
  | .sHdr => a < 28
  | .sTread => 28 ≤ a ∧ ∃ n, s.hNumFrames = some n ∧ a < 28 + 4 * (n.toNat + 1)
  | .sFetch => ∃ x z, s.spanStart = some x ∧ s.spanEnd = some z ∧ x.toNat ≤ a ∧ a < z.toNat
  | .idle | .sDim | .sTvalid | .sSpan | .sInfl | .sExpand | .sNext | .done | .error => False

/-- The elements that hold no value until they are written and that the instruction reads: the `Reads` of
its step's rule (41 R152, 42 R161 and R164, 43 R179, R182, R183, R185 and R187), and for an ENTRY what the
operation that consults it reads beside it. S_INFL reads PLEN where Inflate gives a payload, and SPAN_START
where it raises. -/
def readBy (s : State) (i : Instr) : List Elem :=
  match i with
  | .sDim => [.hWidth, .hHeight]
  | .sTread => [.hNumFrames]
  | .sTvalid => .tLen :: (List.range ((s.tLen.map (·.toNat)).getD 0)).map .table
  | .sSpan => [.dataBase, .table s.idx.toNat, .table (s.idx.toNat + 1)]
  | .sFetch => [.spanStart, .spanEnd]
  | .sInfl =>
    .cbuf :: match s.cbuf.map s.askInflate with
      | some .fail => [.spanStart]
      | some (.ok p) => if s.plen.map (·.toNat) = some p.length then [.plen] else [.plen, .spanStart]
      | some .never | none => []
  | .sExpand => [.pbuf, .hWidth, .hHeight]
  | .sNext => [.table (s.idx.toNat + 1), .tLen]
  | .entryEmpty _ | .entryIFrame _ | .entryPFrame _ | .entryIPFrame _ =>
    if s.phase = .sSpan then [.dataBase, .table s.idx.toNat]
    else if s.phase = .sTvalid ∨ s.phase = .sNext then [.tLen] else []
  | .eoff _ | .etype _ | .epack _ _ | .hparse _ | .hbuild _ _ _ _ | .tvalid _ | .rexp _ | .rasm _ _ _ => []
  | .sHdr | .header _ | .reset | .run _ _ => []

/-- Two tables with the same offsets and the same Empty entries, whatever the other types. -/
def SameButTypes (t t' : List Word) : Prop :=
  List.Forall₂ (fun e e' => e.toNat / 4 = e'.toNat / 4 ∧ (e.toNat % 4 = 0 ↔ e'.toNat % 4 = 0)) t t'

end Sys2Proof.Claim

open Sys2Proof.Claim

/-! ## EDEC -/

/-- R121: EOFF answers `e >> 2`, logical, and touches nothing else. -/
def Obligations.EoffAnswersOffset : Prop :=
  ∀ (e : Word) (s : State), (Instr.eoff e).opsel = 0x01 ∧
    exec (.eoff e) s =
      .next { s with answers := s.answers ++ [.word (BitVec.ofNat 32 (e.toNat / 4))] }

/-- R122: ETYPE answers the frame type of the low two bits, and touches nothing else. -/
def Obligations.EtypeAnswersLowBits : Prop :=
  ∀ (e : Word) (s : State), (Instr.etype e).opsel = 0x02 ∧
    exec (.etype e) s = .next { s with answers := s.answers ++ [.frameType (typeNumbered e.toNat)] }

/-- R124, R126: EPACK packs an offset below 2^30 and answers OffsetTooLarge to any other, never a
truncated word; either way it touches nothing else. -/
def Obligations.EpackPacksOrRejects : Prop :=
  ∀ (o : Word) (t : FrameType) (s : State), (Instr.epack o t).opsel = 0x03 ∧
    (o.toNat < 2 ^ 30 → exec (.epack o t) s =
      .next { s with answers := s.answers ++ [.word (BitVec.ofNat 32 (4 * o.toNat + tagNumber t))] }) ∧
    (2 ^ 30 ≤ o.toNat → exec (.epack o t) s =
      .next { s with answers := s.answers ++ [.error .offsetTooLarge] })

/-- 40_entry_codec, section 5 (the packing laws; the converse and the injectivity are marked derived
there): pack and unpack are inverse to each other. -/
def Obligations.PackAndUnpackAreInverse : Prop :=
  (∀ (o : Word) (t : FrameType), o.toNat < 2 ^ 30 →
    ∃ w, epack o t = .ok w ∧ etype w = t ∧ eoff w = o) ∧
  (∀ e : Word, epack (eoff e) (etype e) = .ok e) ∧
  (∀ e e' : Word, unpack e = unpack e' → e = e')

/-! ## HDR -/

/-- R142, R143: HPARSE of 28 bytes answers the seven fields if the first 12 bytes are MAGIC, and
InvalidMagic and no field otherwise; it touches nothing else. -/
def Obligations.HparseChecksMagicThenFields : Prop :=
  ∀ (b : List Byte) (s : State), b.length = 28 → (Instr.hparse b).opsel = 0x04 ∧
    (b.take 12 = Config.magic.toList → exec (.hparse b) s =
      .next { s with answers := s.answers ++ [.header
        { magic := Config.magic, reserved1 := u32 b 12, numFrames := u16 b 16, reserved2 := u16 b 18,
          frameRate := u32 b 20, width := u16 b 24, height := u16 b 26 }] }) ∧
    (b.take 12 ≠ Config.magic.toList → exec (.hparse b) s =
      .next { s with answers := s.answers ++ [.error .invalidMagic] })

/-- R145, R146: HBUILD answers the 28 bytes of a header with MAGIC, zero reserved fields and the
operands, for every operand value; `num_frames` omitted is 0. -/
def Obligations.HbuildAnswersHeaderBytes : Prop :=
  ∀ (r : Word) (w h : Half) (n : Option Half) (s : State), (Instr.hbuild r w h n).opsel = 0x05 ∧
    exec (.hbuild r w h n) s =
      .next { s with answers := s.answers ++ [.bytes
        (Config.magic.toList ++ [0, 0, 0, 0] ++ bytes2 (n.getD 0) ++ [0, 0] ++ bytes4 r ++ bytes2 w ++
          bytes2 h)] }

/-- 41_header_codec, sections 1 and 4 (R140, R141 and the round trip; the inverse and the converse are
marked derived there): a header's record is 28 bytes whatever its fields hold, and its fields are read back
from it; parsing a built header gives its fields, and a parsed header's bytes are the bytes parsed. -/
def Obligations.HeaderRoundTrips : Prop :=
  (∀ h : Header, (headerBytes h).length = 28 ∧ headerOf (headerBytes h) = h) ∧
  (∀ (r : Word) (w h : Half) (n : Option Half),
    hparse (headerBytes (hbuild r w h n)) = .ok (hbuild r w h n)) ∧
  (∀ (b : List Byte) (h : Header), b.length = 28 → hparse b = .ok h →
    headerBytes h = b ∧ h.magic = Config.magic)

/-! ## TVALID, REXP, RASM -/

/-- R163: TVALID answers whether there is a last entry and its low two bits are 00. -/
def Obligations.TvalidAnswersLastType : Prop :=
  ∀ (t : List Word) (s : State), (Instr.tvalid t).opsel = 0x06 ∧
    ∃ v, exec (.tvalid t) s = .next { s with answers := s.answers ++ [.bool v] } ∧
      (v = true ↔ ∃ e, t.getLast? = some e ∧ e.toNat % 4 = 0)

/-- R211: REXP answers eight elements, element `k` being bit `7 - k` as 0 or 1. -/
def Obligations.RexpAnswersBitsHighFirst : Prop :=
  ∀ (v : Byte) (s : State), (Instr.rexp v).opsel = 0x07 ∧
    exec (.rexp v) s = .next { s with answers := s.answers ++
      [.pixels ((List.range 8).map fun k => if v.getLsbD (7 - k) then 1 else 0)] }

/-- R212: RASM inside its precondition answers `width*height` elements, element `p` being
`payload[p / 8][7 - (p mod 8)]`; outside it, it is refused. It touches nothing else. -/
def Obligations.RasmAnswersRasterOrRefuses : Prop :=
  ∀ (p : List Byte) (w h : Half) (s : State), (Instr.rasm p w h).opsel = 0x08 ∧
    (DimsGood w h ∧ p.length = w.toNat * h.toNat / 8 → exec (.rasm p w h) s =
      .next { s with answers := s.answers ++
        [.pixels ((List.range (w.toNat * h.toNat)).map (pixel p))] }) ∧
    (¬ (DimsGood w h ∧ p.length = w.toNat * h.toNat / 8) → exec (.rasm p w h) s =
      .next { s with answers := s.answers ++ [.refused] })

/-- 44_raster_expander, section 1 (the laws of the expander, marked derived there): length, elements 0
or 1, as many ones as the payload has bits set, locality, injectivity. -/
def Obligations.RasterLaws : Prop :=
  ∀ (p p' : List Byte) (w h : Half), DimsGood w h → p.length = w.toNat * h.toNat / 8 →
    p'.length = p.length →
    (rasm p w h).length = w.toNat * h.toNat ∧
    (∀ x ∈ rasm p w h, x = 0 ∨ x = 1) ∧
    ((rasm p w h).filter (· = 1)).length =
      (p.map fun b => ((List.range 8).filter fun k => b.getLsbD k).length).sum ∧
    (∀ j v, p[j]? = some v → ((rasm p w h).drop (8 * j)).take 8 = rexp v) ∧
    (rasm p w h = rasm p' w h → p = p')

/-- 00_scope, section 5 (R13), and 30_encoding, section 5 (R106 d, for HPARSE of other than 28 bytes): each
function operation answers in every state, its answer depends on its operands alone, and no state element
changes. -/
def Obligations.FunctionAnswersAreStateless : Prop :=
  (∀ e, ∃ a, ∀ s, exec (.eoff e) s = .next { s with answers := s.answers ++ [a] }) ∧
  (∀ e, ∃ a, ∀ s, exec (.etype e) s = .next { s with answers := s.answers ++ [a] }) ∧
  (∀ o t, ∃ a, ∀ s, exec (.epack o t) s = .next { s with answers := s.answers ++ [a] }) ∧
  (∀ b, ∃ a, (b.length ≠ 28 → a = .refused) ∧
    ∀ s, exec (.hparse b) s = .next { s with answers := s.answers ++ [a] }) ∧
  (∀ r w h n, ∃ a, ∀ s, exec (.hbuild r w h n) s = .next { s with answers := s.answers ++ [a] }) ∧
  (∀ t, ∃ a, ∀ s, exec (.tvalid t) s = .next { s with answers := s.answers ++ [a] }) ∧
  (∀ v, ∃ a, ∀ s, exec (.rexp v) s = .next { s with answers := s.answers ++ [a] }) ∧
  (∀ p w h, ∃ a, ∀ s, exec (.rasm p w h) s = .next { s with answers := s.answers ++ [a] })

/-! ## The step operations -/

/-- R150, R151: S_HDR raises IoError(none, 0) where the 28 bytes cannot be read, InvalidMagic(none, 0)
where their first 12 are not MAGIC, and latches the seven fields otherwise. -/
def Obligations.SHdrLatchesOrRaises : Prop :=
  ∀ s : State, Instr.sHdr.opsel = 0x11 ∧
    (Unreadable s 0 28 → exec .sHdr s =
      .next { s with errCode := .ioError, errIndex := none, errOffset := 0, phase := .error }) ∧
    (Readable s 0 28 → span s 0 12 ≠ Config.magic.toList → exec .sHdr s =
      .next { s with errCode := .invalidMagic, errIndex := none, errOffset := 0, phase := .error }) ∧
    (Readable s 0 28 → span s 0 12 = Config.magic.toList → exec .sHdr s =
      .next { s with
        hMagic := some 0x444956206574616479616C50, hReserved1 := some (u32 (span s 0 28) 12),
        hNumFrames := some (u16 (span s 0 28) 16), hReserved2 := some (u16 (span s 0 28) 18),
        hFrameRate := some (u32 (span s 0 28) 20), hWidth := some (u16 (span s 0 28) 24),
        hHeight := some (u16 (span s 0 28) 26), hValid := true, cursor := 28, phase := .sDim })

/-- R152: S_DIM writes PLEN, the exact eighth of the product, or raises InvalidDimensions(none, 24). -/
def Obligations.SDimComputesPlenOrRaises : Prop :=
  ∀ (s : State) (w h : Half), s.hWidth = some w → s.hHeight = some h → Instr.sDim.opsel = 0x12 ∧
    (DimsGood w h → ∃ n : Word, 8 * n.toNat = w.toNat * h.toNat ∧
      exec .sDim s = .next { s with plen := some n, phase := .sTread }) ∧
    (¬ DimsGood w h → exec .sDim s =
      .next { s with errCode := .invalidDimensions, errIndex := none, errOffset := 24, phase := .error })

/-- R161, R162: S_TREAD reads exactly `H_NUMFRAMES + 1` words in file order and latches them, or raises
IoError at the lowest entry that cannot be read, with no partial table. -/
def Obligations.STreadLatchesTableOrRaises : Prop :=
  ∀ (s : State) (n : Half), s.hNumFrames = some n → Instr.sTread.opsel = 0x13 ∧
    ((∀ j, j ≤ n.toNat → Readable s (28 + 4 * j) 4) → exec .sTread s =
      .next { s with
        table := (List.range (n.toNat + 1)).map fun j => u32 (span s (28 + 4 * j) 4) 0,
        tLen := some (BitVec.ofNat 17 (n.toNat + 1)), tValid := true,
        dataBase := some (BitVec.ofNat 32 (28 + 4 * (n.toNat + 1))),
        cursor := BitVec.ofNat 32 (28 + 4 * (n.toNat + 1)), phase := .sTvalid }) ∧
    (∀ j, j ≤ n.toNat → (∀ k, k < j → Readable s (28 + 4 * k) 4) → Unreadable s (28 + 4 * j) 4 →
      exec .sTread s = .next { s with
        errCode := .ioError, errIndex := none, errOffset := BitVec.ofNat 32 (28 + 4 * j),
        phase := .error })

/-- R164: S_TVALID looks at the last entry's type alone: DONE for a one-entry table, else S_SPAN, or
MalformedTable at the address of the last entry. -/
def Obligations.STvalidChecksLastEntry : Prop :=
  ∀ (s : State) (n : Index) (e : Word), s.tLen = some n → 1 ≤ n.toNat → n.toNat ≤ s.table.length →
    s.table[n.toNat - 1]? = some e → Instr.sTvalid.opsel = 0x14 ∧
    (e.toNat % 4 = 0 → n.toNat = 1 → exec .sTvalid s = .next { s with phase := .done }) ∧
    (e.toNat % 4 = 0 → n.toNat ≠ 1 → exec .sTvalid s = .next { s with phase := .sSpan }) ∧
    (e.toNat % 4 ≠ 0 → exec .sTvalid s = .next { s with
      errCode := .malformedTable, errIndex := none,
      errOffset := BitVec.ofNat 32 (28 + 4 * (n.toNat - 1)), phase := .error })

/-- R179, R180, R181: S_SPAN writes both bounds where they are in order and inside the STREAM (equal
bounds pass), and raises InvalidRange(IDX, start) otherwise; the entries' types are not read. -/
def Obligations.SSpanResolvesOrRaises : Prop :=
  ∀ (s : State) (d e e' : Word), s.dataBase = some d → s.table[s.idx.toNat]? = some e →
    s.table[s.idx.toNat + 1]? = some e' → Instr.sSpan.opsel = 0x15 ∧
    ((e'.toNat / 4 < e.toNat / 4 ∨ s.streamLen.toNat < d.toNat + e'.toNat / 4) → exec .sSpan s =
      .next { s with
        errCode := .invalidRange, errIndex := some s.idx,
        errOffset := BitVec.ofNat 32 (d.toNat + e.toNat / 4), phase := .error }) ∧
    (e.toNat / 4 ≤ e'.toNat / 4 → d.toNat + e'.toNat / 4 ≤ s.streamLen.toNat → exec .sSpan s =
      .next { s with
        spanStart := some (BitVec.ofNat 32 (d.toNat + e.toNat / 4)),
        spanEnd := some (BitVec.ofNat 32 (d.toNat + e'.toNat / 4)), phase := .sFetch })

/-- R182: S_FETCH reads exactly the span, or raises IoError(IDX, SPAN_START). -/
def Obligations.SFetchReadsExactSpan : Prop :=
  ∀ (s : State) (a z : Word), s.spanStart = some a → s.spanEnd = some z → a.toNat ≤ z.toNat →
    Instr.sFetch.opsel = 0x16 ∧
    (Readable s a.toNat (z.toNat - a.toNat) → exec .sFetch s =
      .next { s with
        cbuf := some (span s a.toNat (z.toNat - a.toNat)), cursor := z, phase := .sInfl }) ∧
    (Unreadable s a.toNat (z.toNat - a.toNat) → exec .sFetch s =
      .next { s with errCode := .ioError, errIndex := some s.idx, errOffset := a, phase := .error })

/-- R183, R184: S_INFL holds a payload of exactly PLEN bytes, and raises CorruptFrame(IDX, SPAN_START)
where Inflate fails or the length differs. A failure raises whatever PLEN is, and a payload of PLEN bytes
is held whatever SPAN_START is. -/
def Obligations.SInflHoldsPayloadOrRaises : Prop :=
  ∀ (s : State) (c : List Byte), s.cbuf = some c → Instr.sInfl.opsel = 0x17 ∧
    (∀ (p : List Byte) (n : Word), s.askInflate c = .ok p → s.plen = some n → p.length = n.toNat →
      exec .sInfl s = .next { s with pbuf := some p, phase := .sExpand }) ∧
    (∀ (p : List Byte) (n a : Word), s.askInflate c = .ok p → s.plen = some n → p.length ≠ n.toNat →
      s.spanStart = some a → exec .sInfl s = .next { s with
        errCode := .corruptFrame, errIndex := some s.idx, errOffset := a, phase := .error }) ∧
    (∀ a : Word, s.askInflate c = .fail → s.spanStart = some a → exec .sInfl s = .next { s with
        errCode := .corruptFrame, errIndex := some s.idx, errOffset := a, phase := .error })

/-- R185: S_EXPAND holds and emits the raster of the payload as frame `IDX + 1`, and counts it. -/
def Obligations.SExpandEmitsRaster : Prop :=
  ∀ (s : State) (p : List Byte) (w h : Half), s.pbuf = some p → s.hWidth = some w →
    s.hHeight = some h → DimsGood w h → p.length = w.toNat * h.toNat / 8 →
    Instr.sExpand.opsel = 0x18 ∧
    exec .sExpand s = .next { s with
      raster := some ((List.range (w.toNat * h.toNat)).map (pixel p)),
      out := s.out ++ [{ frameNo := BitVec.ofNat 16 (s.idx.toNat + 1), width := w, height := h,
                         raster := (List.range (w.toNat * h.toNat)).map (pixel p) }],
      framesOut := s.framesOut + 1, phase := .sNext }

/-- R187: S_NEXT goes to DONE at an Empty-typed entry that is not the last and at the last entry, leaving
IDX, and to S_SPAN with IDX advanced otherwise. -/
def Obligations.SNextStopsOrAdvances : Prop :=
  ∀ (s : State) (e : Word) (n : Index), s.table[s.idx.toNat + 1]? = some e → s.tLen = some n →
    Instr.sNext.opsel = 0x19 ∧
    (e.toNat % 4 = 0 ∧ s.idx.toNat + 2 ≠ n.toNat → exec .sNext s = .next { s with phase := .done }) ∧
    (s.idx.toNat + 2 = n.toNat → exec .sNext s = .next { s with phase := .done }) ∧
    (e.toNat % 4 ≠ 0 ∧ s.idx.toNat + 2 ≠ n.toNat → exec .sNext s =
      .next { s with idx := BitVec.ofNat 17 (s.idx.toNat + 1), phase := .sSpan })

/-! ## The commands -/

/-- R260: RESET, in every state, gives every element its reset value and leaves the parameters and the
host's ports. -/
def Obligations.ResetClearsEveryElement : Prop :=
  ∀ s : State, Instr.reset.opsel = 0x1E ∧ exec .reset s = .next
    { hValid := false, hMagic := none, hReserved1 := none, hNumFrames := none, hReserved2 := none,
      hFrameRate := none, hWidth := none, hHeight := none, table := [], tLen := none, tValid := false,
      phase := .idle, idx := 0, cursor := 0, dataBase := none, spanStart := none, spanEnd := none,
      plen := none, framesOut := 0, cbuf := none, pbuf := none, raster := none, out := [],
      errCode := .none, errIndex := none, errOffset := 0, stream := s.stream, streamLen := s.streamLen,
      ioAnswers := s.ioAnswers, inflateAnswers := s.inflateAnswers, emptyFirst := s.emptyFirst,
      inbox := s.inbox, answers := s.answers }

/-- R177: START in IDLE takes the STREAM and STREAM_LEN, whatever they are, writes IDX, FRAMES_OUT, CURSOR and PHASE and
nothing else; in any other PHASE it is refused and no state changes. -/
def Obligations.StartBeginsSessionInIdleOnly : Prop :=
  ∀ (b : List Byte) (n : Word) (s : State), (Instr.run b n).opsel = 0x1F ∧
    (s.phase = .idle → ∃ m : Memory,
      (∀ a, a < n.toNat → ∀ v, b[a]? = some v → m.read a = v) ∧ m.wf = true ∧
      exec (.run b n) s = .next { s with
        stream := m, streamLen := n, idx := 0, framesOut := 0, cursor := 0, phase := .sHdr }) ∧
    (s.phase ≠ .idle → exec (.run b n) s =
      .next { s with answers := s.answers ++ [.refused] })

/-- 43_frame_extraction R177, 20_memory R64: in IDLE a RUN begins the session whether or not STREAM_LEN is
the number of bytes of its STREAM; a read that passes STREAM_LEN fails, and one within both answers the
STREAM's bytes. The model's choice, log entry 15: an address below STREAM_LEN that the STREAM does not
reach holds a free byte, for every value of it. -/
def Obligations.RunTakesAnyStreamLen : Prop :=
  ∀ (b : List Byte) (n : Word) (s : State), s.phase = .idle →
    ∃ t, exec (.run b n) s = .next t ∧ t.phase = .sHdr ∧ t.streamLen = n ∧
      (∀ a k, n.toNat < a + k → t.memRead a k = .fail) ∧
      (∀ a k, a + k ≤ n.toNat → a + k ≤ b.length → s.ioAnswers.lookup (a, k) = none →
        t.memRead a k = .bytes ((b.drop a).take k)) ∧
      (∀ a, b.length ≤ a → a < n.toNat → t.stream.read a = Config.absentByte s.inbox.length a)

/-- 30_encoding R105: what the operation port does with each OPSEL code: reserved codes and step codes
are refused, functions are answered in any STATUS, RESET is accepted in any STATUS and RUN in IDLE only.
How the operands of RESET and RUN are written as bytes is the model's choice, log entry 9. -/
def Obligations.PortFollowsOpselTable : Prop :=
  ∀ (s : State) (r : Request), s.dueRequest = some r →
    ((r.opsel.toNat = 0 ∨ (0x09 ≤ r.opsel.toNat ∧ r.opsel.toNat ≤ 0x1D)) →
      step s = .next { s with inbox := s.inbox.tail, answers := s.answers ++ [.refused] }) ∧
    (1 ≤ r.opsel.toNat ∧ r.opsel.toNat ≤ 8 →
      ∃ a, step s = .next { s with inbox := s.inbox.tail, answers := s.answers ++ [a] }) ∧
    (r.opsel.toNat = 0x1E → r.operands = [] →
      ∃ t, step s = .next t ∧ t.phase = .idle ∧ t.out = [] ∧ t.errCode = .none) ∧
    (r.opsel.toNat = 0x1F → s.phase ≠ .idle →
      step s = .next { s with inbox := s.inbox.tail, answers := s.answers ++ [.refused] }) ∧
    (r.opsel.toNat = 0x1F → s.phase = .idle → 4 ≤ r.operands.length →
      ∃ t, step s = .next t ∧ t.phase = .sHdr ∧ t.streamLen = u32 r.operands 0 ∧
        ∀ a, a < t.streamLen.toNat → ∀ v, r.operands[a + 4]? = some v → t.stream.read a = v)

/-! ## The container's own words (the model's reading of what executing one is: log entry 11) -/

/-- 30_encoding R98, 43_frame_extraction R187: what S_NEXT does with the entry after the frame's. -/
def Obligations.EntryWordsSteerSNext : Prop :=
  ∀ (o : BitVec 30) (s : State) (n : Index), s.phase = .sNext → s.tLen = some n →
    exec (.entryEmpty o) s = .next { s with phase := .done } ∧
    ∀ i ∈ [Instr.entryIFrame o, .entryPFrame o, .entryIPFrame o],
      (s.idx.toNat + 2 = n.toNat → exec i s = .next { s with phase := .done }) ∧
      (s.idx.toNat + 2 ≠ n.toNat → exec i s =
        .next { s with idx := BitVec.ofNat 17 (s.idx.toNat + 1), phase := .sSpan })

/-- 30_encoding R98, 42_frame_table R164: what S_TVALID does with the last entry. -/
def Obligations.EntryWordsDecideSTvalid : Prop :=
  ∀ (o : BitVec 30) (s : State) (n : Index), s.phase = .sTvalid → s.tLen = some n → 1 ≤ n.toNat →
    (exec (.entryEmpty o) s = .next { s with phase := if n.toNat = 1 then .done else .sSpan }) ∧
    ∀ i ∈ [Instr.entryIFrame o, .entryPFrame o, .entryIPFrame o], exec i s = .next { s with
      errCode := .malformedTable, errIndex := none,
      errOffset := BitVec.ofNat 32 (28 + 4 * (n.toNat - 1)), phase := .error }

/-- 30_encoding R98, R99, 43_frame_extraction R179: the offset of the entry after the frame's ends its
span, whatever its type. -/
def Obligations.EntryWordsEndSpan : Prop :=
  ∀ (o : BitVec 30) (s : State) (d e : Word), s.phase = .sSpan → s.dataBase = some d →
    s.table[s.idx.toNat]? = some e →
    ∀ i ∈ [Instr.entryEmpty o, .entryIFrame o, .entryPFrame o, .entryIPFrame o],
      ((o.toNat < e.toNat / 4 ∨ s.streamLen.toNat < d.toNat + o.toNat) → exec i s =
        .next { s with
          errCode := .invalidRange, errIndex := some s.idx,
          errOffset := BitVec.ofNat 32 (d.toNat + e.toNat / 4), phase := .error }) ∧
      (e.toNat / 4 ≤ o.toNat → d.toNat + o.toNat ≤ s.streamLen.toNat → exec i s =
        .next { s with
          spanStart := some (BitVec.ofNat 32 (d.toNat + e.toNat / 4)),
          spanEnd := some (BitVec.ofNat 32 (d.toNat + o.toNat)), phase := .sFetch })

/-- 30_encoding R98, log entry 11: in a PHASE that consults no entry by itself an ENTRY word changes
nothing. -/
def Obligations.EntryWordsElsewhereDoNothing : Prop :=
  ∀ (o : BitVec 30) (s : State), s.phase ≠ .sTvalid → s.phase ≠ .sSpan → s.phase ≠ .sNext →
    ∀ i ∈ [Instr.entryEmpty o, .entryIFrame o, .entryPFrame o, .entryIPFrame o], exec i s = .next s

/-- 30_encoding R97: at S_TVALID, S_SPAN and S_NEXT the sequencer's step is the meaning of the ENTRY word
it consults, decoded. -/
def Obligations.StepRunsConsultedEntry : Prop :=
  ∀ (s : State) (e : Word) (n : Index) (i : Instr), s.dueRequest = none → s.heldBack = false →
    s.tLen = some n → n.toNat = s.table.length → decode .entry (bytes4 e) = .ok i →
    ((s.phase = .sNext ∨ s.phase = .sSpan) ∧ s.table[s.idx.toNat + 1]? = some e ∨
      s.phase = .sTvalid ∧ s.table.getLast? = some e) →
    step s = exec i s.tick

/-- 41_header_codec R142, R150: in S_HDR a HEADER whose magic is MAGIC is latched field by field and any
other is rejected with InvalidMagic; in every other PHASE no header is read. -/
def Obligations.HeaderWordIsLatchedInSHdr : Prop :=
  ∀ (h : Header) (s : State),
    (s.phase = .sHdr → h.magic = Config.magic → exec (.header h) s =
      .next { s with
        hMagic := some 0x444956206574616479616C50, hReserved1 := some h.reserved1,
        hNumFrames := some h.numFrames, hReserved2 := some h.reserved2,
        hFrameRate := some h.frameRate, hWidth := some h.width, hHeight := some h.height,
        hValid := true, cursor := 28, phase := .sDim }) ∧
    (s.phase = .sHdr → h.magic ≠ Config.magic → exec (.header h) s =
      .next { s with errCode := .invalidMagic, errIndex := none, errOffset := 0, phase := .error }) ∧
    (s.phase ≠ .sHdr → exec (.header h) s = .next s)

/-- 41_header_codec R150: at S_HDR the sequencer's step is the meaning of the HEADER it reads, decoded. -/
def Obligations.StepRunsHeaderRead : Prop :=
  ∀ (s : State) (i : Instr), s.dueRequest = none → s.phase = .sHdr → Readable s 0 28 →
    decode .header (span s 0 28) = .ok i → step s = exec i s.tick

/-! ## Errors -/

/-- R232: `raise E(index, offset)` writes the number of E, the index, the offset and PHASE, and nothing
else; and a step operation that raises has no other effect. -/
def Obligations.RaisingStepHasNoPartialEffect : Prop :=
  ([ErrCode.none, .invalidMagic, .ioError, .invalidRange, .malformedTable, .corruptFrame,
    .offsetTooLarge, .invalidDimensions].map fun e => e.code.toNat) = List.range 8 ∧
  (∀ (s : State) (e : ErrCode) (index : Option Index) (offset : Nat),
    s.raise e index offset = { s with
      errCode := e, errIndex := index, errOffset := BitVec.ofNat 32 offset, phase := .error }) ∧
  ∀ (s t : State) (i : Instr), i ∈ stepOps → s.phase ≠ .error → exec i s = .next t →
    t.phase = .error →
    t.errCode ≠ .none ∧ t.errCode ≠ .offsetTooLarge ∧
      t = { s with errCode := t.errCode, errIndex := t.errIndex, errOffset := t.errOffset,
                   phase := .error }

/-- R237: ERROR is left only by RESET: any other step in ERROR leaves every element as it is, the error
record included. -/
def Obligations.ErrorIsLeftByResetOnly : Prop :=
  ∀ (s t : State), s.phase = .error → step s = .next t →
    (∃ r, s.dueRequest = some r ∧ r.opsel = 0x1E ∧ t.phase = .idle ∧ t.errCode = .none ∧ t.out = []) ∨
    t = { s with inbox := t.inbox, answers := t.answers }

/-! ## The whole machine -/

/-- R39: STATUS is a function of the number of PHASE. -/
def Obligations.StatusFollowsPhase : Prop :=
  ∀ s : State, (s.status = .idle ↔ s.phase.code.toNat = 0) ∧
    (s.status = .busy ↔ 1 ≤ s.phase.code.toNat ∧ s.phase.code.toNat ≤ 9) ∧
    (s.status = .done ↔ s.phase.code.toNat = 0xA) ∧ (s.status = .error ↔ s.phase.code.toNat = 0xB)

/-- R31: the codes of PHASE, and how it advances: where no request is served, a step leaves the state as
it is, leads to a successor of the table, or, in a BUSY phase, to ERROR. -/
def Obligations.PhaseAdvancesByTable : Prop :=
  ([Phase.idle, .sHdr, .sDim, .sTread, .sTvalid, .sSpan, .sFetch, .sInfl, .sExpand, .sNext, .done,
    .error].map fun p => p.code.toNat) = List.range 12 ∧
  ∀ (s t : State), s.dueRequest = none → step s = .next t →
    t = s.tick ∨ t.phase ∈ successors s.phase ∨ (s.status = .busy ∧ t.phase = .error)

/-- 10_state R38, 43_frame_extraction R185: a step other than a RESET leaves OUT as it is or appends one
record, in S_EXPAND, with `frame_no = IDX + 1` and the held geometry. -/
def Obligations.OutIsAppendOnly : Prop :=
  ∀ (s t : State), step s = .next t → (∀ r, s.dueRequest = some r → r.opsel ≠ 0x1E) →
    t.out = s.out ∨
    (s.phase = .sExpand ∧ s.dueRequest = none ∧ ∃ r : OutRecord, t.out = s.out ++ [r] ∧
      r.frameNo = BitVec.ofNat 16 (s.idx.toNat + 1) ∧ s.hWidth = some r.width ∧
      s.hHeight = some r.height ∧ t.raster = some r.raster)

/-- 10_state R27 ("Written by S_TREAD only"), 42_frame_table, section 3: a step that is neither S_TREAD's
nor a RESET leaves TABLE, T_LEN, T_VALID and DATA_BASE as they are. -/
def Obligations.TableIsWrittenBySTreadOnly : Prop :=
  ∀ (s t : State), step s = .next t → (∀ r, s.dueRequest = some r → r.opsel ≠ 0x1E) →
    (s.dueRequest = none → s.phase ≠ .sTread) →
    t.table = s.table ∧ t.tLen = s.tLen ∧ t.tValid = s.tValid ∧ t.dataBase = s.dataBase

/-- 20_memory R61, R73: no instruction but RUN, which takes the session's STREAM, changes a byte of the
STREAM, its length or an oracle. -/
def Obligations.StreamIsReadOnly : Prop :=
  ∀ (s t : State) (i : Instr), (∀ b n, i ≠ .run b n) → exec i s = .next t →
    (∀ a, t.stream.read a = s.stream.read a) ∧ t.stream = s.stream ∧ t.streamLen = s.streamLen ∧
      t.ioAnswers = s.ioAnswers ∧ t.inflateAnswers = s.inflateAnswers ∧ t.emptyFirst = s.emptyFirst

/-- R64: `MemRead(addr, n)` fails where `addr + n > STREAM_LEN` or IoFail says so, and answers the bytes
`STREAM[addr], ..., STREAM[addr+n-1]` otherwise. -/
def Obligations.MemReadAnswersBytesOrFails : Prop :=
  ∀ (s : State) (a n : Nat), (Unreadable s a n → s.memRead a n = .fail) ∧
    (Readable s a n → s.memRead a n = .bytes (span s a n))

/-- R71: a step's result depends on the STREAM at the addresses it reads and nowhere else: the header's
in S_HDR, the table's in S_TREAD, the span's in S_FETCH, none in any other PHASE. -/
def Obligations.StepReadsItsAddressesOnly : Prop :=
  ∀ (s t : State) (m : Memory), s.dueRequest = none →
    (∀ a, Reads s a → m.read a = s.stream.read a) → step s = .next t →
    step { s with stream := m } = .next { t with stream := m }

/-- 30_encoding R98, 43_frame_extraction R186: which of the three non-Empty types an entry of the held
table has changes nothing but the table itself, in any step. -/
def Obligations.NonEmptyTypesDoNotSteer : Prop :=
  ∀ (s t : State) (u : List Word), SameButTypes s.table u → step s = .next t →
    ∃ u', SameButTypes t.table u' ∧ step { s with table := u } = .next { t with table := u' }

/-- 10_state, section 8: the invariant of every reachable state is kept by every step, the host's
requests among them. -/
def Obligations.EveryStepKeepsInv : Prop :=
  ∀ s t : State, s.Inv → step s = .next t → t.Inv

/-- 10_state, section 8: the invariant holds after reset. -/
def Obligations.ResetMeetsInv : Prop := State.reset.Inv

/-- 93_implementation_defined U8 ("no step of this spec performs such a read"): where the invariant holds,
every step has a next state: no fault, no refusal. -/
def Obligations.NoReachableStepStops : Prop := ∀ s : State, s.Inv → ∃ t, step s = .next t

/-- 43_frame_extraction, section 7 (the end of a run, marked derived there): a session whose reads and
Inflate requests are answered, and which no request disturbs, reaches DONE or ERROR within
`4 + 5 * H_NUMFRAMES` steps (4, where no header is held). -/
def Obligations.RunEndsInDoneOrError : Prop :=
  ∀ s : State, s.Inv → s.phase = .sHdr → s.inbox = [] → s.Answering → s.emptyFirst = .process →
    ∃ (k : Nat) (t : State), Sys2Proof.core.run k s = .next t ∧
      (t.phase = .done ∨ t.phase = .error) ∧
      k ≤ 4 + 5 * (t.hNumFrames.map (·.toNat)).getD 0

/-- 10_state R21: where the invariant holds, a host read of an H_* element gets a value exactly where
H_VALID is 1, and H_MAGIC is then le(MAGIC). -/
def Obligations.HeaderReadableIffValid : Prop :=
  ∀ s : State, s.Inv →
    (∀ e ∈ [Elem.hMagic, .hReserved1, .hNumFrames, .hReserved2, .hFrameRate, .hWidth, .hHeight],
      (s.hostRead .hValid = some (.number 1) ↔ (s.hostRead e).isSome = true)) ∧
    (s.hostRead .hValid = some (.number 1) →
      s.hostRead .hMagic = some (.number 0x444956206574616479616C50))

/-- 00_scope R8, log entry 6: with EMPTY_FIRST_ENTRY = refuse, a session whose TABLE[0] is Empty-typed has
no step after S_TVALID. -/
def Obligations.RefusedEmptyFirstEntryIsStuck : Prop :=
  ∀ (s : State) (e : Word) (rest : List Word), s.dueRequest = none → s.emptyFirst = .refuse →
    s.phase = .sSpan → s.table = e :: rest → e.toNat % 4 = 0 → step s = .next s.tick

/-- 70_reset_and_hazards R273, log entry 4: a read or an Inflate request that is never answered leaves the
session BUSY, in S_HDR, S_TREAD, S_FETCH and S_INFL. -/
def Obligations.UnansweredRequestLeavesSessionBusy : Prop :=
  (∀ s : State, 28 ≤ s.streamLen.toNat → s.ioAnswers.lookup (0, 28) = some .never →
    exec .sHdr s = .next s) ∧
  (∀ (s : State) (n : Half) (j : Nat), s.hNumFrames = some n → j ≤ n.toNat →
    (∀ k, k < j → Readable s (28 + 4 * k) 4) → 28 + 4 * j + 4 ≤ s.streamLen.toNat →
    s.ioAnswers.lookup (28 + 4 * j, 4) = some .never → exec .sTread s = .next s) ∧
  (∀ (s : State) (a z : Word), s.spanStart = some a → s.spanEnd = some z → a.toNat ≤ z.toNat →
    z.toNat ≤ s.streamLen.toNat → s.ioAnswers.lookup (a.toNat, z.toNat - a.toNat) = some .never →
    exec .sFetch s = .next s) ∧
  (∀ (s : State) (c : List Byte), s.cbuf = some c → s.inflateAnswers.lookup c = some .never →
    exec .sInfl s = .next s)

/-- 10_state R21, 93_implementation_defined U8 (treatment `fault`; for T_LEN log entry 1): an instruction
stops for want of a value exactly where an element it reads holds none, and the element the stop names is
one of which a host read gets nothing. -/
def Obligations.StopsExactlyWhereNoValue : Prop :=
  ∀ (s : State) (i : Instr),
    ((∃ e, exec i s = .fault (.noValue e)) ↔ ∃ e ∈ readBy s i, s.hostRead e = none) ∧
    (∀ e, exec i s = .fault (.noValue e) → e ∈ readBy s i ∧ s.hostRead e = none)

/-- Log entry 1: the two other stops. S_FETCH stops where SPAN_END is below SPAN_START (43_frame_extraction
R176), S_EXPAND outside RASM's precondition (44_raster_expander R212), and nothing else stops so. -/
def Obligations.OtherStopsAreOutsideTheDomain : Prop :=
  ∀ (s : State) (i : Instr),
    (exec i s = .fault .spanReversed ↔
      i = .sFetch ∧ ∃ a z, s.spanStart = some a ∧ s.spanEnd = some z ∧ z.toNat < a.toNat) ∧
    (exec i s = .fault .rasmPrecondition ↔
      i = .sExpand ∧ ∃ p w h, s.pbuf = some p ∧ s.hWidth = some w ∧ s.hHeight = some h ∧
        ¬ (DimsGood w h ∧ p.length = w.toNat * h.toNat / 8))

/-! ## Encodings -/

/-- R97, R100: every 32-bit word is an ENTRY: its four little-endian bytes decode to the row of its low
two bits, with the upper thirty as the offset. -/
def Obligations.EveryWordIsAnEntry : Prop :=
  ∀ e : Word,
    (e.toNat % 4 = 0 → decode .entry (bytes4 e) = .ok (.entryEmpty (BitVec.ofNat 30 (e.toNat / 4)))) ∧
    (e.toNat % 4 = 1 → decode .entry (bytes4 e) = .ok (.entryIFrame (BitVec.ofNat 30 (e.toNat / 4)))) ∧
    (e.toNat % 4 = 2 → decode .entry (bytes4 e) = .ok (.entryPFrame (BitVec.ofNat 30 (e.toNat / 4)))) ∧
    (e.toNat % 4 = 3 → decode .entry (bytes4 e) = .ok (.entryIPFrame (BitVec.ofNat 30 (e.toNat / 4))))

/-- R92: 28 bytes are a HEADER if and only if their 224-bit little-endian value matches
0x444956206574616479616C50 under the mask 2^96 - 1, that is on its low 96 bits. -/
def Obligations.HeaderMatchesOnMagic : Prop :=
  ∀ H : Nat, H < 2 ^ 224 →
    ((∃ i, decode .header ((List.range 28).map fun k => BitVec.ofNat 8 (H / 2 ^ (8 * k))) = .ok i) ↔
      H &&& (2 ^ 96 - 1) = 0x444956206574616479616C50)

/-- 30_encoding R105: the reserved OPSEL codes, and no others, decode to nothing by that name. -/
def Obligations.ReservedOpselsAreTheTables : Prop :=
  ∀ (c : BitVec 5) (b : List Byte), decodeOp c b = .error (.reservedOpsel c) ↔
    c.toNat = 0 ∨ (0x09 ≤ c.toNat ∧ c.toNat ≤ 0x10) ∨ (0x1A ≤ c.toNat ∧ c.toNat ≤ 0x1D)

/-- 30_encoding, sections 2, 3 and 5: decoding the encoding of a well-formed instruction gives it back,
with every operand. -/
def Obligations.DecodeOfEncode : Prop :=
  ∀ i : Instr, i.wellFormed = true → decode i.format (encode i) = .ok i

/-- 30_encoding, sections 2, 3 and 5: what decodes is well-formed, is in the format it was decoded in,
and encodes to the bytes it was decoded from: no bit is dropped and no two byte strings mean the same. -/
def Obligations.EncodeOfDecode : Prop :=
  ∀ (f : Format) (b : List Byte) (i : Instr), decode f b = .ok i →
    i.wellFormed = true ∧ i.format = f ∧ encode i = b

/-- A few words written out from 30_encoding R97 and R105. The operand bytes of EPACK and HBUILD are laid out
as the model chose, log entry 9: the spec gives no operand layout. -/
def Obligations.SampleWordsDecode : Prop :=
  decodeTableWord 32 0x00000191 = some (.entryIFrame 100) ∧
  decodeTableWord 32 0xFFFFFFFC = some (.entryEmpty 0x3FFFFFFF) ∧
  decodeTableWord 8 0x15 = some .sSpan ∧ decodeTableWord 8 0x1E = some .reset ∧
  decodeTableWord 8 0x0C = none ∧
  decode .opsel [0x03, 100, 0, 0, 0, 1] = .ok (.epack 100 .iFrame) ∧
  decode .opsel [0x05, 0x00, 0x00, 0xF0, 0x41, 8, 0, 2, 0, 2, 0] = .ok (.hbuild 0x41F00000 8 2 (some 2))

/-- 43_frame_extraction R188, 30_encoding R105: where no request is due and the session is not held back,
a step is the instruction that the byte `0x10 | PHASE` decodes to, run on the state (in which the time to
the next request has become shorter by one step); where that code is reserved, nothing happens. -/
def Obligations.StepRunsPhaseInstruction : Prop :=
  ∀ s : State, s.dueRequest = none → s.heldBack = false →
    (∀ i, decode .opsel [0x10 ||| s.phase.code.setWidth 8] = .ok i → step s = exec i s.tick) ∧
    ((∀ i, decode .opsel [0x10 ||| s.phase.code.setWidth 8] ≠ .ok i) → step s = .next s.tick)

/-- 30_encoding R105, R106: where a request is due, a step is the instruction its bytes decode to, run on
the state with the request taken off the port, if it is a function operation, RESET or RUN; any other
request is answered `refused`. -/
def Obligations.StepRunsDueRequest : Prop :=
  ∀ (s : State) (r : Request) (rest : List Request), s.inbox = r :: rest → r.delay = 0 →
    (∀ i, decode .opsel (r.opsel.setWidth 8 :: r.operands) = .ok i → i ∉ stepOps →
      step s = exec i { s with inbox := rest }) ∧
    (∀ i, decode .opsel (r.opsel.setWidth 8 :: r.operands) = .ok i → i ∈ stepOps →
      step s = .next { s with inbox := rest, answers := s.answers ++ [.refused] }) ∧
    ((∀ i, decode .opsel (r.opsel.setWidth 8 :: r.operands) ≠ .ok i) →
      step s = .next { s with inbox := rest, answers := s.answers ++ [.refused] })
end

