-- ==== Sys2Proof/Laws/Bytes.lean ====
section
/-! SUPPORT. Little-endian byte sequences and the fields of the formats: the small lemmas of Decode. -/

namespace Sys2Proof

@[simp] theorem leBytes_length (n v : Nat) : (leBytes n v).length = n := by
  induction n generalizing v with
  | zero => rfl
  | succ n ih => simp [leBytes, ih]

theorem le_leBytes (n v : Nat) : le (leBytes n v) = v % 256 ^ n := by
  induction n generalizing v with
  | zero => simp [leBytes, le, Nat.mod_one]
  | succ n ih =>
    have h : v % (256 * 256 ^ n) = v % 256 + 256 * (v / 256 % 256 ^ n) := Nat.mod_mul
    rw [leBytes, le, ih, BitVec.toNat_ofNat, Nat.pow_succ' (m := 256), h]

theorem le_lt (b : List Byte) : le b < 256 ^ b.length := by
  induction b with
  | nil => simp [le]
  | cons x b ih =>
    have := x.isLt
    rw [le, List.length_cons, Nat.pow_succ]
    omega

theorem leBytes_le (b : List Byte) : leBytes b.length (le b) = b := by
  induction b with
  | nil => rfl
  | cons x b ih =>
    have hx := x.isLt
    have hdiv : (x.toNat + 256 * le b) / 256 = le b := by omega
    rw [List.length_cons, leBytes, le, hdiv, ih]
    congr 1
    apply BitVec.eq_of_toNat_eq
    rw [BitVec.toNat_ofNat]
    omega

@[simp] theorem wordBytes_length (w : Word) : (wordBytes w).length = 4 := leBytes_length _ _
@[simp] theorem halfBytes_length (h : Half) : (halfBytes h).length = 2 := leBytes_length _ _

@[simp] theorem wordOf_wordBytes (w : Word) : wordOf (wordBytes w) = w := by
  apply BitVec.eq_of_toNat_eq
  have := w.isLt
  rw [wordOf, wordBytes, le_leBytes, BitVec.toNat_ofNat]
  omega

@[simp] theorem halfOf_halfBytes (h : Half) : halfOf (halfBytes h) = h := by
  apply BitVec.eq_of_toNat_eq
  have := h.isLt
  rw [halfOf, halfBytes, le_leBytes, BitVec.toNat_ofNat]
  omega

theorem wordBytes_wordOf (b : List Byte) (h : b.length = 4) : wordBytes (wordOf b) = b := by
  have hlt := le_lt b
  rw [h] at hlt
  have e : (wordOf b).toNat = le b := by
    rw [wordOf, BitVec.toNat_ofNat]
    omega
  rw [wordBytes, e, ← h, leBytes_le]

theorem halfBytes_halfOf (b : List Byte) (h : b.length = 2) : halfBytes (halfOf b) = b := by
  have hlt := le_lt b
  rw [h] at hlt
  have e : (halfOf b).toNat = le b := by
    rw [halfOf, BitVec.toNat_ofNat]
    omega
  rw [halfBytes, e, ← h, leBytes_le]

/-- The Magic field of a record is its first 12 bytes. -/
theorem magicOf_toList (b : List Byte) (h : 12 ≤ b.length) : (magicOf b).toList = b.take 12 := by
  apply List.ext_getElem
  · simp; omega
  · intro k hk _
    have hk' : k < b.length := by
      simp at hk
      omega
    simp [magicOf, hk']

/-- A record whose first 12 bytes are a magic has that Magic field, and no other record has. -/
theorem magicOf_eq_iff (b : List Byte) (m : Vector Byte 12) (h : 12 ≤ b.length) :
    magicOf b = m ↔ b.take 12 = m.toList := by
  rw [← magicOf_toList b h, Vector.toList_inj]

/-- A header's record is 28 bytes, whatever its fields hold (30_encoding R90, 41_header_codec R141). -/
@[simp] theorem headerBytes_length (h : Header) : (headerBytes h).length = 28 := by
  simp [headerBytes]

theorem sliceOf_length (b : List Byte) (lo n : Nat) (h : lo + n ≤ b.length) :
    (sliceOf b lo n).length = n := by
  simp only [sliceOf, List.length_take, List.length_drop]
  omega

@[simp] theorem FrameType.ofTag_tag (t : FrameType) : FrameType.ofTag t.tag = t := by
  cases t <;> rfl

@[simp] theorem FrameType.tag_ofTag (b : BitVec 2) : (FrameType.ofTag b).tag = b := by
  revert b; decide

@[simp] theorem entryType_entryWord (o : BitVec 30) (t : FrameType) : entryType (entryWord o t) = t := by
  have : (entryWord o t).extractLsb' 0 2 = t.tag := by
    unfold entryWord
    exact BitVec.extractLsb'_append_eq_right
  rw [entryType, this, FrameType.ofTag_tag]

@[simp] theorem entryOffset_entryWord (o : BitVec 30) (t : FrameType) :
    entryOffset (entryWord o t) = o := by
  unfold entryWord entryOffset
  exact BitVec.extractLsb'_append_eq_left

theorem entryWord_entryOffset (e : Word) : entryWord (entryOffset e) (entryType e) = e := by
  have ht : (entryType e).tag = e.extractLsb' 0 2 := FrameType.tag_ofTag _
  apply BitVec.eq_of_getLsbD_eq
  intro i hi
  rw [entryWord, ht, BitVec.getLsbD_append]
  by_cases h : i < 2
  · simp [h]
  · have h2 : 2 + (i - 2) = i := by omega
    have h3 : i - 2 < 30 := by omega
    simp [h, entryOffset, h2, h3]

end Sys2Proof
end

