-- ==== Sys2Proof/Laws/Memory.lean ====
section
/-! SUPPORT. The STREAM as a canonical list: read after write, what a write leaves alone, and that every
operation keeps the canonical form. -/

namespace Sys2Proof.Machine

@[simp] theorem Memory.read_nil (a : Nat) : Memory.read [] a = 0 := rfl

theorem Memory.wfFrom_mono {lo lo' : Nat} (h : lo' ≤ lo) (m : Memory) (hm : m.wfFrom lo = true) :
    m.wfFrom lo' = true := by
  cases m with
  | nil => rfl
  | cons c m =>
    simp only [wfFrom, Bool.and_eq_true, decide_eq_true_eq] at hm ⊢
    exact ⟨⟨by omega, hm.1.2⟩, hm.2⟩

/-- Below the first address of a canonical list every byte is unlisted. -/
theorem Memory.read_below {lo a : Nat} (h : a < lo) (m : Memory) (hm : m.wfFrom lo = true) :
    m.read a = 0 := by
  induction m generalizing lo with
  | nil => rfl
  | cons c m ih =>
    simp only [wfFrom, Bool.and_eq_true, decide_eq_true_eq] at hm
    have hne : c.1 ≠ a := by omega
    rw [read, if_neg hne]
    exact ih (by omega) hm.2

theorem Memory.ofBytes_wfFrom (base : Nat) (b : List Byte) :
    (Memory.ofBytes base b).wfFrom base = true := by
  induction b generalizing base with
  | nil => rfl
  | cons x b ih =>
    rw [ofBytes]
    split
    · exact wfFrom_mono (Nat.le_succ base) _ (ih (base + 1))
    · next hx => simp [wfFrom, hx, ih (base + 1)]

/-- A placed byte sequence is in canonical form. -/
theorem Memory.ofBytes_wf (base : Nat) (b : List Byte) : (Memory.ofBytes base b).wf = true :=
  wfFrom_mono (Nat.zero_le base) _ (ofBytes_wfFrom base b)

theorem Memory.ofBytes_addresses (base : Nat) (b : List Byte) :
    ∀ c ∈ Memory.ofBytes base b, base ≤ c.1 ∧ c.1 < base + b.length := by
  induction b generalizing base with
  | nil => intro c hc; cases hc
  | cons x b ih =>
    intro c hc
    rw [ofBytes] at hc
    split at hc
    · have := ih (base + 1) c hc
      simp only [List.length_cons]
      omega
    · rcases List.mem_cons.1 hc with rfl | hc
      · simp
      · have := ih (base + 1) c hc
        simp only [List.length_cons]
        omega

/-- Reading back a placed byte sequence gives its bytes. -/
theorem Memory.read_ofBytes (base : Nat) (b : List Byte) (k : Nat) :
    (Memory.ofBytes base b).read (base + k) = b.getD k 0 := by
  induction b generalizing base k with
  | nil => simp [ofBytes]
  | cons x b ih =>
    rw [ofBytes]
    cases k with
    | zero =>
      split
      · next hx =>
        have h := read_below (Nat.lt_succ_self base) _ (ofBytes_wfFrom (base + 1) b)
        simpa [hx, unlisted] using h
      · simp [read]
    | succ k =>
      have e : base + (k + 1) = base + 1 + k := by omega
      split
      · rw [e, ih (base + 1) k]; simp
      · rw [read, if_neg (by omega), e, ih (base + 1) k]; simp

theorem Memory.write_wfFrom (m : Memory) (lo a : Nat) (v : Byte) (hm : m.wfFrom lo = true)
    (ha : lo ≤ a) : (m.write a v).wfFrom lo = true := by
  induction m generalizing lo with
  | nil =>
    by_cases hv : v = unlisted <;> simp [write, hv, wfFrom, ha]
  | cons c m ih =>
    simp only [wfFrom, Bool.and_eq_true, decide_eq_true_eq] at hm
    obtain ⟨⟨h1, h2⟩, h3⟩ := hm
    rw [write]
    split
    · simp only [wfFrom, Bool.and_eq_true, decide_eq_true_eq]
      exact ⟨⟨h1, h2⟩, ih (c.1 + 1) h3 (by omega)⟩
    · split
      · next _ he =>
        subst he
        split
        · exact wfFrom_mono (by omega) _ h3
        · next hv => simp [wfFrom, hv, h1, h3]
      · split
        · simp [wfFrom, h1, h2, h3]
        · next hv =>
          have h4 : a + 1 ≤ c.1 := by omega
          simp [wfFrom, hv, ha, h2, h3, h4]

/-- Writing a byte keeps the canonical form. -/
theorem Memory.write_wf (m : Memory) (a : Nat) (v : Byte) (hm : m.wf = true) :
    (m.write a v).wf = true := write_wfFrom m 0 a v hm (Nat.zero_le a)

/-- A read after a write: the byte written at that address, the old byte everywhere else. -/
theorem Memory.read_write (m : Memory) (lo a a' : Nat) (v : Byte) (hm : m.wfFrom lo = true) :
    (m.write a v).read a' = if a' = a then v else m.read a' := by
  induction m generalizing lo with
  | nil =>
    by_cases hv : v = unlisted
    · by_cases h : a' = a <;> simp [write, hv, read, h, unlisted]
    · by_cases h : a' = a
      · simp [write, hv, read, h]
      · simp [write, hv, read, h, Ne.symm h]
  | cons c m ih =>
    simp only [wfFrom, Bool.and_eq_true, decide_eq_true_eq] at hm
    obtain ⟨⟨h1, h2⟩, h3⟩ := hm
    have below : ∀ x, x ≤ c.1 → Memory.read m x = unlisted := fun x hx =>
      read_below (Nat.lt_succ_of_le hx) m h3
    rw [write]
    split
    · next hlt =>
      rw [read, read, ih (c.1 + 1) h3]
      by_cases h : c.1 = a'
      · rw [if_pos h, if_neg (by omega), if_pos h]
      · rw [if_neg h, if_neg h]
    · split
      · next _ he =>
        subst he
        split
        · next hv =>
          rw [read]
          by_cases h : a' = c.1
          · rw [if_pos h, hv, h, below c.1 (Nat.le_refl _)]
          · rw [if_neg h, if_neg (Ne.symm h)]
        · rw [read, read]
          by_cases h : a' = c.1
          · rw [if_pos h.symm, if_pos h]
          · rw [if_neg (Ne.symm h), if_neg h, if_neg (Ne.symm h)]
      · split
        · next hv =>
          by_cases h : a' = a
          · rw [if_pos h, hv, read, if_neg (by omega), below a' (by omega)]
          · rw [if_neg h]
        · rw [read]
          by_cases h : a' = a
          · rw [if_pos h.symm, if_pos h]
          · rw [if_neg (Ne.symm h), if_neg h]

@[simp] theorem Memory.readBytes_length (m : Memory) (a n : Nat) : (m.readBytes a n).length = n := by
  induction n generalizing a with
  | zero => rfl
  | succ n ih => simp [readBytes, ih]

/-- The `k`-th byte read is the one at `a + k`. -/
theorem Memory.readBytes_getElem? (m : Memory) (a n k : Nat) (h : k < n) :
    (m.readBytes a n)[k]? = some (m.read (a + k)) := by
  induction n generalizing a k with
  | zero => omega
  | succ n ih =>
    cases k with
    | zero => simp [readBytes]
    | succ k =>
      rw [readBytes, List.getElem?_cons_succ, ih (a + 1) k (by omega)]
      congr 2
      omega

theorem Memory.readBytes_eq_map (m : Memory) (a n : Nat) :
    m.readBytes a n = (List.range n).map fun k => m.read (a + k) := by
  apply List.ext_getElem?
  intro k
  by_cases h : k < n
  · rw [readBytes_getElem? m a n k h]
    simp [h]
  · rw [List.getElem?_eq_none (by simp; omega), List.getElem?_eq_none (by simp; omega)]

/-- Two streams that agree on the addresses read give the same bytes. -/
theorem Memory.readBytes_congr (m m' : Memory) (a n : Nat)
    (h : ∀ x, a ≤ x → x < a + n → m.read x = m'.read x) : m.readBytes a n = m'.readBytes a n := by
  rw [readBytes_eq_map, readBytes_eq_map]
  apply List.map_congr_left
  intro k hk
  have := List.mem_range.1 hk
  exact h (a + k) (by omega) (by omega)

end Sys2Proof.Machine
end

