-- ==== Sys2Proof/Laws/State.lean ====
section
/-! SUPPORT. What each named update of the state does to each field, so that no proof unfolds an update. -/

namespace Sys2Proof.Machine

/-! `raise` writes the error record and PHASE (60_exceptions R232). -/

@[simp] theorem State.raise_hValid (s : State) (e : ErrCode) (i : Option Index) (o : Nat) : (s.raise e i o).hValid = s.hValid := rfl
@[simp] theorem State.raise_hMagic (s : State) (e : ErrCode) (i : Option Index) (o : Nat) : (s.raise e i o).hMagic = s.hMagic := rfl
@[simp] theorem State.raise_hReserved1 (s : State) (e : ErrCode) (i : Option Index) (o : Nat) : (s.raise e i o).hReserved1 = s.hReserved1 := rfl
@[simp] theorem State.raise_hNumFrames (s : State) (e : ErrCode) (i : Option Index) (o : Nat) : (s.raise e i o).hNumFrames = s.hNumFrames := rfl
@[simp] theorem State.raise_hReserved2 (s : State) (e : ErrCode) (i : Option Index) (o : Nat) : (s.raise e i o).hReserved2 = s.hReserved2 := rfl
@[simp] theorem State.raise_hFrameRate (s : State) (e : ErrCode) (i : Option Index) (o : Nat) : (s.raise e i o).hFrameRate = s.hFrameRate := rfl
@[simp] theorem State.raise_hWidth (s : State) (e : ErrCode) (i : Option Index) (o : Nat) : (s.raise e i o).hWidth = s.hWidth := rfl
@[simp] theorem State.raise_hHeight (s : State) (e : ErrCode) (i : Option Index) (o : Nat) : (s.raise e i o).hHeight = s.hHeight := rfl
@[simp] theorem State.raise_table (s : State) (e : ErrCode) (i : Option Index) (o : Nat) : (s.raise e i o).table = s.table := rfl
@[simp] theorem State.raise_tLen (s : State) (e : ErrCode) (i : Option Index) (o : Nat) : (s.raise e i o).tLen = s.tLen := rfl
@[simp] theorem State.raise_tValid (s : State) (e : ErrCode) (i : Option Index) (o : Nat) : (s.raise e i o).tValid = s.tValid := rfl
@[simp] theorem State.raise_phase (s : State) (e : ErrCode) (i : Option Index) (o : Nat) : (s.raise e i o).phase = .error := rfl
@[simp] theorem State.raise_idx (s : State) (e : ErrCode) (i : Option Index) (o : Nat) : (s.raise e i o).idx = s.idx := rfl
@[simp] theorem State.raise_cursor (s : State) (e : ErrCode) (i : Option Index) (o : Nat) : (s.raise e i o).cursor = s.cursor := rfl
@[simp] theorem State.raise_dataBase (s : State) (e : ErrCode) (i : Option Index) (o : Nat) : (s.raise e i o).dataBase = s.dataBase := rfl
@[simp] theorem State.raise_spanStart (s : State) (e : ErrCode) (i : Option Index) (o : Nat) : (s.raise e i o).spanStart = s.spanStart := rfl
@[simp] theorem State.raise_spanEnd (s : State) (e : ErrCode) (i : Option Index) (o : Nat) : (s.raise e i o).spanEnd = s.spanEnd := rfl
@[simp] theorem State.raise_plen (s : State) (e : ErrCode) (i : Option Index) (o : Nat) : (s.raise e i o).plen = s.plen := rfl
@[simp] theorem State.raise_framesOut (s : State) (e : ErrCode) (i : Option Index) (o : Nat) : (s.raise e i o).framesOut = s.framesOut := rfl
@[simp] theorem State.raise_cbuf (s : State) (e : ErrCode) (i : Option Index) (o : Nat) : (s.raise e i o).cbuf = s.cbuf := rfl
@[simp] theorem State.raise_pbuf (s : State) (e : ErrCode) (i : Option Index) (o : Nat) : (s.raise e i o).pbuf = s.pbuf := rfl
@[simp] theorem State.raise_raster (s : State) (e : ErrCode) (i : Option Index) (o : Nat) : (s.raise e i o).raster = s.raster := rfl
@[simp] theorem State.raise_out (s : State) (e : ErrCode) (i : Option Index) (o : Nat) : (s.raise e i o).out = s.out := rfl
@[simp] theorem State.raise_errCode (s : State) (e : ErrCode) (i : Option Index) (o : Nat) : (s.raise e i o).errCode = e := rfl
@[simp] theorem State.raise_errIndex (s : State) (e : ErrCode) (i : Option Index) (o : Nat) : (s.raise e i o).errIndex = i := rfl
@[simp] theorem State.raise_errOffset (s : State) (e : ErrCode) (i : Option Index) (o : Nat) : (s.raise e i o).errOffset = BitVec.ofNat 32 o := rfl
@[simp] theorem State.raise_stream (s : State) (e : ErrCode) (i : Option Index) (o : Nat) : (s.raise e i o).stream = s.stream := rfl
@[simp] theorem State.raise_streamLen (s : State) (e : ErrCode) (i : Option Index) (o : Nat) : (s.raise e i o).streamLen = s.streamLen := rfl
@[simp] theorem State.raise_ioAnswers (s : State) (e : ErrCode) (i : Option Index) (o : Nat) : (s.raise e i o).ioAnswers = s.ioAnswers := rfl
@[simp] theorem State.raise_inflateAnswers (s : State) (e : ErrCode) (i : Option Index) (o : Nat) : (s.raise e i o).inflateAnswers = s.inflateAnswers := rfl
@[simp] theorem State.raise_emptyFirst (s : State) (e : ErrCode) (i : Option Index) (o : Nat) : (s.raise e i o).emptyFirst = s.emptyFirst := rfl
@[simp] theorem State.raise_inbox (s : State) (e : ErrCode) (i : Option Index) (o : Nat) : (s.raise e i o).inbox = s.inbox := rfl
@[simp] theorem State.raise_answers (s : State) (e : ErrCode) (i : Option Index) (o : Nat) : (s.raise e i o).answers = s.answers := rfl

/-! RESET writes every state element (70_reset_and_hazards R260). -/

@[simp] theorem State.toReset_hValid (s : State) : (s.toReset).hValid = false := rfl
@[simp] theorem State.toReset_hMagic (s : State) : (s.toReset).hMagic = none := rfl
@[simp] theorem State.toReset_hReserved1 (s : State) : (s.toReset).hReserved1 = none := rfl
@[simp] theorem State.toReset_hNumFrames (s : State) : (s.toReset).hNumFrames = none := rfl
@[simp] theorem State.toReset_hReserved2 (s : State) : (s.toReset).hReserved2 = none := rfl
@[simp] theorem State.toReset_hFrameRate (s : State) : (s.toReset).hFrameRate = none := rfl
@[simp] theorem State.toReset_hWidth (s : State) : (s.toReset).hWidth = none := rfl
@[simp] theorem State.toReset_hHeight (s : State) : (s.toReset).hHeight = none := rfl
@[simp] theorem State.toReset_table (s : State) : (s.toReset).table = [] := rfl
@[simp] theorem State.toReset_tLen (s : State) : (s.toReset).tLen = none := rfl
@[simp] theorem State.toReset_tValid (s : State) : (s.toReset).tValid = false := rfl
@[simp] theorem State.toReset_phase (s : State) : (s.toReset).phase = .idle := rfl
@[simp] theorem State.toReset_idx (s : State) : (s.toReset).idx = 0 := rfl
@[simp] theorem State.toReset_cursor (s : State) : (s.toReset).cursor = 0 := rfl
@[simp] theorem State.toReset_dataBase (s : State) : (s.toReset).dataBase = none := rfl
@[simp] theorem State.toReset_spanStart (s : State) : (s.toReset).spanStart = none := rfl
@[simp] theorem State.toReset_spanEnd (s : State) : (s.toReset).spanEnd = none := rfl
@[simp] theorem State.toReset_plen (s : State) : (s.toReset).plen = none := rfl
@[simp] theorem State.toReset_framesOut (s : State) : (s.toReset).framesOut = 0 := rfl
@[simp] theorem State.toReset_cbuf (s : State) : (s.toReset).cbuf = none := rfl
@[simp] theorem State.toReset_pbuf (s : State) : (s.toReset).pbuf = none := rfl
@[simp] theorem State.toReset_raster (s : State) : (s.toReset).raster = none := rfl
@[simp] theorem State.toReset_out (s : State) : (s.toReset).out = [] := rfl
@[simp] theorem State.toReset_errCode (s : State) : (s.toReset).errCode = .none := rfl
@[simp] theorem State.toReset_errIndex (s : State) : (s.toReset).errIndex = none := rfl
@[simp] theorem State.toReset_errOffset (s : State) : (s.toReset).errOffset = 0 := rfl
@[simp] theorem State.toReset_stream (s : State) : (s.toReset).stream = s.stream := rfl
@[simp] theorem State.toReset_streamLen (s : State) : (s.toReset).streamLen = s.streamLen := rfl
@[simp] theorem State.toReset_ioAnswers (s : State) : (s.toReset).ioAnswers = s.ioAnswers := rfl
@[simp] theorem State.toReset_inflateAnswers (s : State) : (s.toReset).inflateAnswers = s.inflateAnswers := rfl
@[simp] theorem State.toReset_emptyFirst (s : State) : (s.toReset).emptyFirst = s.emptyFirst := rfl
@[simp] theorem State.toReset_inbox (s : State) : (s.toReset).inbox = s.inbox := rfl
@[simp] theorem State.toReset_answers (s : State) : (s.toReset).answers = s.answers := rfl

/-! An answer touches the operation port alone. -/

@[simp] theorem State.answer_hValid (s : State) (a : Answer) : (s.answer a).hValid = s.hValid := rfl
@[simp] theorem State.answer_hMagic (s : State) (a : Answer) : (s.answer a).hMagic = s.hMagic := rfl
@[simp] theorem State.answer_hReserved1 (s : State) (a : Answer) : (s.answer a).hReserved1 = s.hReserved1 := rfl
@[simp] theorem State.answer_hNumFrames (s : State) (a : Answer) : (s.answer a).hNumFrames = s.hNumFrames := rfl
@[simp] theorem State.answer_hReserved2 (s : State) (a : Answer) : (s.answer a).hReserved2 = s.hReserved2 := rfl
@[simp] theorem State.answer_hFrameRate (s : State) (a : Answer) : (s.answer a).hFrameRate = s.hFrameRate := rfl
@[simp] theorem State.answer_hWidth (s : State) (a : Answer) : (s.answer a).hWidth = s.hWidth := rfl
@[simp] theorem State.answer_hHeight (s : State) (a : Answer) : (s.answer a).hHeight = s.hHeight := rfl
@[simp] theorem State.answer_table (s : State) (a : Answer) : (s.answer a).table = s.table := rfl
@[simp] theorem State.answer_tLen (s : State) (a : Answer) : (s.answer a).tLen = s.tLen := rfl
@[simp] theorem State.answer_tValid (s : State) (a : Answer) : (s.answer a).tValid = s.tValid := rfl
@[simp] theorem State.answer_phase (s : State) (a : Answer) : (s.answer a).phase = s.phase := rfl
@[simp] theorem State.answer_idx (s : State) (a : Answer) : (s.answer a).idx = s.idx := rfl
@[simp] theorem State.answer_cursor (s : State) (a : Answer) : (s.answer a).cursor = s.cursor := rfl
@[simp] theorem State.answer_dataBase (s : State) (a : Answer) : (s.answer a).dataBase = s.dataBase := rfl
@[simp] theorem State.answer_spanStart (s : State) (a : Answer) : (s.answer a).spanStart = s.spanStart := rfl
@[simp] theorem State.answer_spanEnd (s : State) (a : Answer) : (s.answer a).spanEnd = s.spanEnd := rfl
@[simp] theorem State.answer_plen (s : State) (a : Answer) : (s.answer a).plen = s.plen := rfl
@[simp] theorem State.answer_framesOut (s : State) (a : Answer) : (s.answer a).framesOut = s.framesOut := rfl
@[simp] theorem State.answer_cbuf (s : State) (a : Answer) : (s.answer a).cbuf = s.cbuf := rfl
@[simp] theorem State.answer_pbuf (s : State) (a : Answer) : (s.answer a).pbuf = s.pbuf := rfl
@[simp] theorem State.answer_raster (s : State) (a : Answer) : (s.answer a).raster = s.raster := rfl
@[simp] theorem State.answer_out (s : State) (a : Answer) : (s.answer a).out = s.out := rfl
@[simp] theorem State.answer_errCode (s : State) (a : Answer) : (s.answer a).errCode = s.errCode := rfl
@[simp] theorem State.answer_errIndex (s : State) (a : Answer) : (s.answer a).errIndex = s.errIndex := rfl
@[simp] theorem State.answer_errOffset (s : State) (a : Answer) : (s.answer a).errOffset = s.errOffset := rfl
@[simp] theorem State.answer_stream (s : State) (a : Answer) : (s.answer a).stream = s.stream := rfl
@[simp] theorem State.answer_streamLen (s : State) (a : Answer) : (s.answer a).streamLen = s.streamLen := rfl
@[simp] theorem State.answer_ioAnswers (s : State) (a : Answer) : (s.answer a).ioAnswers = s.ioAnswers := rfl
@[simp] theorem State.answer_inflateAnswers (s : State) (a : Answer) : (s.answer a).inflateAnswers = s.inflateAnswers := rfl
@[simp] theorem State.answer_emptyFirst (s : State) (a : Answer) : (s.answer a).emptyFirst = s.emptyFirst := rfl
@[simp] theorem State.answer_inbox (s : State) (a : Answer) : (s.answer a).inbox = s.inbox := rfl
@[simp] theorem State.answer_answers (s : State) (a : Answer) : (s.answer a).answers = s.answers ++ [a] := rfl

/-! `Emit` appends to OUT (10_state R38). -/

@[simp] theorem State.emit_hValid (s : State) (k : Nat) (w h : Half) (r : List Pixel) : (s.emit k w h r).hValid = s.hValid := rfl
@[simp] theorem State.emit_hMagic (s : State) (k : Nat) (w h : Half) (r : List Pixel) : (s.emit k w h r).hMagic = s.hMagic := rfl
@[simp] theorem State.emit_hReserved1 (s : State) (k : Nat) (w h : Half) (r : List Pixel) : (s.emit k w h r).hReserved1 = s.hReserved1 := rfl
@[simp] theorem State.emit_hNumFrames (s : State) (k : Nat) (w h : Half) (r : List Pixel) : (s.emit k w h r).hNumFrames = s.hNumFrames := rfl
@[simp] theorem State.emit_hReserved2 (s : State) (k : Nat) (w h : Half) (r : List Pixel) : (s.emit k w h r).hReserved2 = s.hReserved2 := rfl
@[simp] theorem State.emit_hFrameRate (s : State) (k : Nat) (w h : Half) (r : List Pixel) : (s.emit k w h r).hFrameRate = s.hFrameRate := rfl
@[simp] theorem State.emit_hWidth (s : State) (k : Nat) (w h : Half) (r : List Pixel) : (s.emit k w h r).hWidth = s.hWidth := rfl
@[simp] theorem State.emit_hHeight (s : State) (k : Nat) (w h : Half) (r : List Pixel) : (s.emit k w h r).hHeight = s.hHeight := rfl
@[simp] theorem State.emit_table (s : State) (k : Nat) (w h : Half) (r : List Pixel) : (s.emit k w h r).table = s.table := rfl
@[simp] theorem State.emit_tLen (s : State) (k : Nat) (w h : Half) (r : List Pixel) : (s.emit k w h r).tLen = s.tLen := rfl
@[simp] theorem State.emit_tValid (s : State) (k : Nat) (w h : Half) (r : List Pixel) : (s.emit k w h r).tValid = s.tValid := rfl
@[simp] theorem State.emit_phase (s : State) (k : Nat) (w h : Half) (r : List Pixel) : (s.emit k w h r).phase = s.phase := rfl
@[simp] theorem State.emit_idx (s : State) (k : Nat) (w h : Half) (r : List Pixel) : (s.emit k w h r).idx = s.idx := rfl
@[simp] theorem State.emit_cursor (s : State) (k : Nat) (w h : Half) (r : List Pixel) : (s.emit k w h r).cursor = s.cursor := rfl
@[simp] theorem State.emit_dataBase (s : State) (k : Nat) (w h : Half) (r : List Pixel) : (s.emit k w h r).dataBase = s.dataBase := rfl
@[simp] theorem State.emit_spanStart (s : State) (k : Nat) (w h : Half) (r : List Pixel) : (s.emit k w h r).spanStart = s.spanStart := rfl
@[simp] theorem State.emit_spanEnd (s : State) (k : Nat) (w h : Half) (r : List Pixel) : (s.emit k w h r).spanEnd = s.spanEnd := rfl
@[simp] theorem State.emit_plen (s : State) (k : Nat) (w h : Half) (r : List Pixel) : (s.emit k w h r).plen = s.plen := rfl
@[simp] theorem State.emit_framesOut (s : State) (k : Nat) (w h : Half) (r : List Pixel) : (s.emit k w h r).framesOut = s.framesOut := rfl
@[simp] theorem State.emit_cbuf (s : State) (k : Nat) (w h : Half) (r : List Pixel) : (s.emit k w h r).cbuf = s.cbuf := rfl
@[simp] theorem State.emit_pbuf (s : State) (k : Nat) (w h : Half) (r : List Pixel) : (s.emit k w h r).pbuf = s.pbuf := rfl
@[simp] theorem State.emit_raster (s : State) (k : Nat) (w h : Half) (r : List Pixel) : (s.emit k w h r).raster = s.raster := rfl
@[simp] theorem State.emit_out (s : State) (k : Nat) (w h : Half) (r : List Pixel) : (s.emit k w h r).out = s.out ++ [⟨BitVec.ofNat 16 k, w, h, r⟩] := rfl
@[simp] theorem State.emit_errCode (s : State) (k : Nat) (w h : Half) (r : List Pixel) : (s.emit k w h r).errCode = s.errCode := rfl
@[simp] theorem State.emit_errIndex (s : State) (k : Nat) (w h : Half) (r : List Pixel) : (s.emit k w h r).errIndex = s.errIndex := rfl
@[simp] theorem State.emit_errOffset (s : State) (k : Nat) (w h : Half) (r : List Pixel) : (s.emit k w h r).errOffset = s.errOffset := rfl
@[simp] theorem State.emit_stream (s : State) (k : Nat) (w h : Half) (r : List Pixel) : (s.emit k w h r).stream = s.stream := rfl
@[simp] theorem State.emit_streamLen (s : State) (k : Nat) (w h : Half) (r : List Pixel) : (s.emit k w h r).streamLen = s.streamLen := rfl
@[simp] theorem State.emit_ioAnswers (s : State) (k : Nat) (w h : Half) (r : List Pixel) : (s.emit k w h r).ioAnswers = s.ioAnswers := rfl
@[simp] theorem State.emit_inflateAnswers (s : State) (k : Nat) (w h : Half) (r : List Pixel) : (s.emit k w h r).inflateAnswers = s.inflateAnswers := rfl
@[simp] theorem State.emit_emptyFirst (s : State) (k : Nat) (w h : Half) (r : List Pixel) : (s.emit k w h r).emptyFirst = s.emptyFirst := rfl
@[simp] theorem State.emit_inbox (s : State) (k : Nat) (w h : Half) (r : List Pixel) : (s.emit k w h r).inbox = s.inbox := rfl
@[simp] theorem State.emit_answers (s : State) (k : Nat) (w h : Half) (r : List Pixel) : (s.emit k w h r).answers = s.answers := rfl

/-! START (43_frame_extraction R177). -/

@[simp] theorem State.start_hValid (s : State) (b : List Byte) (n : Word) : (s.start b n).hValid = s.hValid := rfl
@[simp] theorem State.start_hMagic (s : State) (b : List Byte) (n : Word) : (s.start b n).hMagic = s.hMagic := rfl
@[simp] theorem State.start_hReserved1 (s : State) (b : List Byte) (n : Word) : (s.start b n).hReserved1 = s.hReserved1 := rfl
@[simp] theorem State.start_hNumFrames (s : State) (b : List Byte) (n : Word) : (s.start b n).hNumFrames = s.hNumFrames := rfl
@[simp] theorem State.start_hReserved2 (s : State) (b : List Byte) (n : Word) : (s.start b n).hReserved2 = s.hReserved2 := rfl
@[simp] theorem State.start_hFrameRate (s : State) (b : List Byte) (n : Word) : (s.start b n).hFrameRate = s.hFrameRate := rfl
@[simp] theorem State.start_hWidth (s : State) (b : List Byte) (n : Word) : (s.start b n).hWidth = s.hWidth := rfl
@[simp] theorem State.start_hHeight (s : State) (b : List Byte) (n : Word) : (s.start b n).hHeight = s.hHeight := rfl
@[simp] theorem State.start_table (s : State) (b : List Byte) (n : Word) : (s.start b n).table = s.table := rfl
@[simp] theorem State.start_tLen (s : State) (b : List Byte) (n : Word) : (s.start b n).tLen = s.tLen := rfl
@[simp] theorem State.start_tValid (s : State) (b : List Byte) (n : Word) : (s.start b n).tValid = s.tValid := rfl
@[simp] theorem State.start_phase (s : State) (b : List Byte) (n : Word) : (s.start b n).phase = .sHdr := rfl
@[simp] theorem State.start_idx (s : State) (b : List Byte) (n : Word) : (s.start b n).idx = 0 := rfl
@[simp] theorem State.start_cursor (s : State) (b : List Byte) (n : Word) : (s.start b n).cursor = 0 := rfl
@[simp] theorem State.start_dataBase (s : State) (b : List Byte) (n : Word) : (s.start b n).dataBase = s.dataBase := rfl
@[simp] theorem State.start_spanStart (s : State) (b : List Byte) (n : Word) : (s.start b n).spanStart = s.spanStart := rfl
@[simp] theorem State.start_spanEnd (s : State) (b : List Byte) (n : Word) : (s.start b n).spanEnd = s.spanEnd := rfl
@[simp] theorem State.start_plen (s : State) (b : List Byte) (n : Word) : (s.start b n).plen = s.plen := rfl
@[simp] theorem State.start_framesOut (s : State) (b : List Byte) (n : Word) : (s.start b n).framesOut = 0 := rfl
@[simp] theorem State.start_cbuf (s : State) (b : List Byte) (n : Word) : (s.start b n).cbuf = s.cbuf := rfl
@[simp] theorem State.start_pbuf (s : State) (b : List Byte) (n : Word) : (s.start b n).pbuf = s.pbuf := rfl
@[simp] theorem State.start_raster (s : State) (b : List Byte) (n : Word) : (s.start b n).raster = s.raster := rfl
@[simp] theorem State.start_out (s : State) (b : List Byte) (n : Word) : (s.start b n).out = s.out := rfl
@[simp] theorem State.start_errCode (s : State) (b : List Byte) (n : Word) : (s.start b n).errCode = s.errCode := rfl
@[simp] theorem State.start_errIndex (s : State) (b : List Byte) (n : Word) : (s.start b n).errIndex = s.errIndex := rfl
@[simp] theorem State.start_errOffset (s : State) (b : List Byte) (n : Word) : (s.start b n).errOffset = s.errOffset := rfl
@[simp] theorem State.start_stream (s : State) (b : List Byte) (n : Word) : (s.start b n).stream = Memory.ofBytes 0 (s.presented b n.toNat) := rfl
@[simp] theorem State.start_streamLen (s : State) (b : List Byte) (n : Word) : (s.start b n).streamLen = n := rfl
@[simp] theorem State.start_ioAnswers (s : State) (b : List Byte) (n : Word) : (s.start b n).ioAnswers = s.ioAnswers := rfl
@[simp] theorem State.start_inflateAnswers (s : State) (b : List Byte) (n : Word) : (s.start b n).inflateAnswers = s.inflateAnswers := rfl
@[simp] theorem State.start_emptyFirst (s : State) (b : List Byte) (n : Word) : (s.start b n).emptyFirst = s.emptyFirst := rfl
@[simp] theorem State.start_inbox (s : State) (b : List Byte) (n : Word) : (s.start b n).inbox = s.inbox := rfl
@[simp] theorem State.start_answers (s : State) (b : List Byte) (n : Word) : (s.start b n).answers = s.answers := rfl

/-! Taking a request off the port. -/

@[simp] theorem State.takeRequest_hValid (s : State) : (s.takeRequest).hValid = s.hValid := rfl
@[simp] theorem State.takeRequest_hMagic (s : State) : (s.takeRequest).hMagic = s.hMagic := rfl
@[simp] theorem State.takeRequest_hReserved1 (s : State) : (s.takeRequest).hReserved1 = s.hReserved1 := rfl
@[simp] theorem State.takeRequest_hNumFrames (s : State) : (s.takeRequest).hNumFrames = s.hNumFrames := rfl
@[simp] theorem State.takeRequest_hReserved2 (s : State) : (s.takeRequest).hReserved2 = s.hReserved2 := rfl
@[simp] theorem State.takeRequest_hFrameRate (s : State) : (s.takeRequest).hFrameRate = s.hFrameRate := rfl
@[simp] theorem State.takeRequest_hWidth (s : State) : (s.takeRequest).hWidth = s.hWidth := rfl
@[simp] theorem State.takeRequest_hHeight (s : State) : (s.takeRequest).hHeight = s.hHeight := rfl
@[simp] theorem State.takeRequest_table (s : State) : (s.takeRequest).table = s.table := rfl
@[simp] theorem State.takeRequest_tLen (s : State) : (s.takeRequest).tLen = s.tLen := rfl
@[simp] theorem State.takeRequest_tValid (s : State) : (s.takeRequest).tValid = s.tValid := rfl
@[simp] theorem State.takeRequest_phase (s : State) : (s.takeRequest).phase = s.phase := rfl
@[simp] theorem State.takeRequest_idx (s : State) : (s.takeRequest).idx = s.idx := rfl
@[simp] theorem State.takeRequest_cursor (s : State) : (s.takeRequest).cursor = s.cursor := rfl
@[simp] theorem State.takeRequest_dataBase (s : State) : (s.takeRequest).dataBase = s.dataBase := rfl
@[simp] theorem State.takeRequest_spanStart (s : State) : (s.takeRequest).spanStart = s.spanStart := rfl
@[simp] theorem State.takeRequest_spanEnd (s : State) : (s.takeRequest).spanEnd = s.spanEnd := rfl
@[simp] theorem State.takeRequest_plen (s : State) : (s.takeRequest).plen = s.plen := rfl
@[simp] theorem State.takeRequest_framesOut (s : State) : (s.takeRequest).framesOut = s.framesOut := rfl
@[simp] theorem State.takeRequest_cbuf (s : State) : (s.takeRequest).cbuf = s.cbuf := rfl
@[simp] theorem State.takeRequest_pbuf (s : State) : (s.takeRequest).pbuf = s.pbuf := rfl
@[simp] theorem State.takeRequest_raster (s : State) : (s.takeRequest).raster = s.raster := rfl
@[simp] theorem State.takeRequest_out (s : State) : (s.takeRequest).out = s.out := rfl
@[simp] theorem State.takeRequest_errCode (s : State) : (s.takeRequest).errCode = s.errCode := rfl
@[simp] theorem State.takeRequest_errIndex (s : State) : (s.takeRequest).errIndex = s.errIndex := rfl
@[simp] theorem State.takeRequest_errOffset (s : State) : (s.takeRequest).errOffset = s.errOffset := rfl
@[simp] theorem State.takeRequest_stream (s : State) : (s.takeRequest).stream = s.stream := rfl
@[simp] theorem State.takeRequest_streamLen (s : State) : (s.takeRequest).streamLen = s.streamLen := rfl
@[simp] theorem State.takeRequest_ioAnswers (s : State) : (s.takeRequest).ioAnswers = s.ioAnswers := rfl
@[simp] theorem State.takeRequest_inflateAnswers (s : State) : (s.takeRequest).inflateAnswers = s.inflateAnswers := rfl
@[simp] theorem State.takeRequest_emptyFirst (s : State) : (s.takeRequest).emptyFirst = s.emptyFirst := rfl
@[simp] theorem State.takeRequest_inbox (s : State) : (s.takeRequest).inbox = s.inbox.tail := rfl
@[simp] theorem State.takeRequest_answers (s : State) : (s.takeRequest).answers = s.answers := rfl

/-! S_HDR's writes (41_header_codec R150). -/

@[simp] theorem State.latchHeader_hValid (s : State) (h : Header) : (s.latchHeader h).hValid = true := rfl
@[simp] theorem State.latchHeader_hMagic (s : State) (h : Header) : (s.latchHeader h).hMagic = some (BitVec.ofNat 96 (le h.magic.toList)) := rfl
@[simp] theorem State.latchHeader_hReserved1 (s : State) (h : Header) : (s.latchHeader h).hReserved1 = some h.reserved1 := rfl
@[simp] theorem State.latchHeader_hNumFrames (s : State) (h : Header) : (s.latchHeader h).hNumFrames = some h.numFrames := rfl
@[simp] theorem State.latchHeader_hReserved2 (s : State) (h : Header) : (s.latchHeader h).hReserved2 = some h.reserved2 := rfl
@[simp] theorem State.latchHeader_hFrameRate (s : State) (h : Header) : (s.latchHeader h).hFrameRate = some h.frameRate := rfl
@[simp] theorem State.latchHeader_hWidth (s : State) (h : Header) : (s.latchHeader h).hWidth = some h.width := rfl
@[simp] theorem State.latchHeader_hHeight (s : State) (h : Header) : (s.latchHeader h).hHeight = some h.height := rfl
@[simp] theorem State.latchHeader_table (s : State) (h : Header) : (s.latchHeader h).table = s.table := rfl
@[simp] theorem State.latchHeader_tLen (s : State) (h : Header) : (s.latchHeader h).tLen = s.tLen := rfl
@[simp] theorem State.latchHeader_tValid (s : State) (h : Header) : (s.latchHeader h).tValid = s.tValid := rfl
@[simp] theorem State.latchHeader_phase (s : State) (h : Header) : (s.latchHeader h).phase = .sDim := rfl
@[simp] theorem State.latchHeader_idx (s : State) (h : Header) : (s.latchHeader h).idx = s.idx := rfl
@[simp] theorem State.latchHeader_cursor (s : State) (h : Header) : (s.latchHeader h).cursor = BitVec.ofNat 32 Config.headerSize := rfl
@[simp] theorem State.latchHeader_dataBase (s : State) (h : Header) : (s.latchHeader h).dataBase = s.dataBase := rfl
@[simp] theorem State.latchHeader_spanStart (s : State) (h : Header) : (s.latchHeader h).spanStart = s.spanStart := rfl
@[simp] theorem State.latchHeader_spanEnd (s : State) (h : Header) : (s.latchHeader h).spanEnd = s.spanEnd := rfl
@[simp] theorem State.latchHeader_plen (s : State) (h : Header) : (s.latchHeader h).plen = s.plen := rfl
@[simp] theorem State.latchHeader_framesOut (s : State) (h : Header) : (s.latchHeader h).framesOut = s.framesOut := rfl
@[simp] theorem State.latchHeader_cbuf (s : State) (h : Header) : (s.latchHeader h).cbuf = s.cbuf := rfl
@[simp] theorem State.latchHeader_pbuf (s : State) (h : Header) : (s.latchHeader h).pbuf = s.pbuf := rfl
@[simp] theorem State.latchHeader_raster (s : State) (h : Header) : (s.latchHeader h).raster = s.raster := rfl
@[simp] theorem State.latchHeader_out (s : State) (h : Header) : (s.latchHeader h).out = s.out := rfl
@[simp] theorem State.latchHeader_errCode (s : State) (h : Header) : (s.latchHeader h).errCode = s.errCode := rfl
@[simp] theorem State.latchHeader_errIndex (s : State) (h : Header) : (s.latchHeader h).errIndex = s.errIndex := rfl
@[simp] theorem State.latchHeader_errOffset (s : State) (h : Header) : (s.latchHeader h).errOffset = s.errOffset := rfl
@[simp] theorem State.latchHeader_stream (s : State) (h : Header) : (s.latchHeader h).stream = s.stream := rfl
@[simp] theorem State.latchHeader_streamLen (s : State) (h : Header) : (s.latchHeader h).streamLen = s.streamLen := rfl
@[simp] theorem State.latchHeader_ioAnswers (s : State) (h : Header) : (s.latchHeader h).ioAnswers = s.ioAnswers := rfl
@[simp] theorem State.latchHeader_inflateAnswers (s : State) (h : Header) : (s.latchHeader h).inflateAnswers = s.inflateAnswers := rfl
@[simp] theorem State.latchHeader_emptyFirst (s : State) (h : Header) : (s.latchHeader h).emptyFirst = s.emptyFirst := rfl
@[simp] theorem State.latchHeader_inbox (s : State) (h : Header) : (s.latchHeader h).inbox = s.inbox := rfl
@[simp] theorem State.latchHeader_answers (s : State) (h : Header) : (s.latchHeader h).answers = s.answers := rfl

/-! S_TREAD's writes (42_frame_table R161). -/

@[simp] theorem State.latchTable_hValid (s : State) (ws : List Word) (n : Nat) : (s.latchTable ws n).hValid = s.hValid := rfl
@[simp] theorem State.latchTable_hMagic (s : State) (ws : List Word) (n : Nat) : (s.latchTable ws n).hMagic = s.hMagic := rfl
@[simp] theorem State.latchTable_hReserved1 (s : State) (ws : List Word) (n : Nat) : (s.latchTable ws n).hReserved1 = s.hReserved1 := rfl
@[simp] theorem State.latchTable_hNumFrames (s : State) (ws : List Word) (n : Nat) : (s.latchTable ws n).hNumFrames = s.hNumFrames := rfl
@[simp] theorem State.latchTable_hReserved2 (s : State) (ws : List Word) (n : Nat) : (s.latchTable ws n).hReserved2 = s.hReserved2 := rfl
@[simp] theorem State.latchTable_hFrameRate (s : State) (ws : List Word) (n : Nat) : (s.latchTable ws n).hFrameRate = s.hFrameRate := rfl
@[simp] theorem State.latchTable_hWidth (s : State) (ws : List Word) (n : Nat) : (s.latchTable ws n).hWidth = s.hWidth := rfl
@[simp] theorem State.latchTable_hHeight (s : State) (ws : List Word) (n : Nat) : (s.latchTable ws n).hHeight = s.hHeight := rfl
@[simp] theorem State.latchTable_table (s : State) (ws : List Word) (n : Nat) : (s.latchTable ws n).table = ws := rfl
@[simp] theorem State.latchTable_tLen (s : State) (ws : List Word) (n : Nat) : (s.latchTable ws n).tLen = some (BitVec.ofNat 17 n) := rfl
@[simp] theorem State.latchTable_tValid (s : State) (ws : List Word) (n : Nat) : (s.latchTable ws n).tValid = true := rfl
@[simp] theorem State.latchTable_phase (s : State) (ws : List Word) (n : Nat) : (s.latchTable ws n).phase = .sTvalid := rfl
@[simp] theorem State.latchTable_idx (s : State) (ws : List Word) (n : Nat) : (s.latchTable ws n).idx = s.idx := rfl
@[simp] theorem State.latchTable_cursor (s : State) (ws : List Word) (n : Nat) : (s.latchTable ws n).cursor = BitVec.ofNat 32 (entryAddress n) := rfl
@[simp] theorem State.latchTable_dataBase (s : State) (ws : List Word) (n : Nat) : (s.latchTable ws n).dataBase = some (BitVec.ofNat 32 (entryAddress n)) := rfl
@[simp] theorem State.latchTable_spanStart (s : State) (ws : List Word) (n : Nat) : (s.latchTable ws n).spanStart = s.spanStart := rfl
@[simp] theorem State.latchTable_spanEnd (s : State) (ws : List Word) (n : Nat) : (s.latchTable ws n).spanEnd = s.spanEnd := rfl
@[simp] theorem State.latchTable_plen (s : State) (ws : List Word) (n : Nat) : (s.latchTable ws n).plen = s.plen := rfl
@[simp] theorem State.latchTable_framesOut (s : State) (ws : List Word) (n : Nat) : (s.latchTable ws n).framesOut = s.framesOut := rfl
@[simp] theorem State.latchTable_cbuf (s : State) (ws : List Word) (n : Nat) : (s.latchTable ws n).cbuf = s.cbuf := rfl
@[simp] theorem State.latchTable_pbuf (s : State) (ws : List Word) (n : Nat) : (s.latchTable ws n).pbuf = s.pbuf := rfl
@[simp] theorem State.latchTable_raster (s : State) (ws : List Word) (n : Nat) : (s.latchTable ws n).raster = s.raster := rfl
@[simp] theorem State.latchTable_out (s : State) (ws : List Word) (n : Nat) : (s.latchTable ws n).out = s.out := rfl
@[simp] theorem State.latchTable_errCode (s : State) (ws : List Word) (n : Nat) : (s.latchTable ws n).errCode = s.errCode := rfl
@[simp] theorem State.latchTable_errIndex (s : State) (ws : List Word) (n : Nat) : (s.latchTable ws n).errIndex = s.errIndex := rfl
@[simp] theorem State.latchTable_errOffset (s : State) (ws : List Word) (n : Nat) : (s.latchTable ws n).errOffset = s.errOffset := rfl
@[simp] theorem State.latchTable_stream (s : State) (ws : List Word) (n : Nat) : (s.latchTable ws n).stream = s.stream := rfl
@[simp] theorem State.latchTable_streamLen (s : State) (ws : List Word) (n : Nat) : (s.latchTable ws n).streamLen = s.streamLen := rfl
@[simp] theorem State.latchTable_ioAnswers (s : State) (ws : List Word) (n : Nat) : (s.latchTable ws n).ioAnswers = s.ioAnswers := rfl
@[simp] theorem State.latchTable_inflateAnswers (s : State) (ws : List Word) (n : Nat) : (s.latchTable ws n).inflateAnswers = s.inflateAnswers := rfl
@[simp] theorem State.latchTable_emptyFirst (s : State) (ws : List Word) (n : Nat) : (s.latchTable ws n).emptyFirst = s.emptyFirst := rfl
@[simp] theorem State.latchTable_inbox (s : State) (ws : List Word) (n : Nat) : (s.latchTable ws n).inbox = s.inbox := rfl
@[simp] theorem State.latchTable_answers (s : State) (ws : List Word) (n : Nat) : (s.latchTable ws n).answers = s.answers := rfl

/-! A tick touches the inbox alone. -/

@[simp] theorem State.tick_hValid (s : State) : s.tick.hValid = s.hValid := by
  unfold State.tick; split <;> rfl
@[simp] theorem State.tick_hMagic (s : State) : s.tick.hMagic = s.hMagic := by
  unfold State.tick; split <;> rfl
@[simp] theorem State.tick_hReserved1 (s : State) : s.tick.hReserved1 = s.hReserved1 := by
  unfold State.tick; split <;> rfl
@[simp] theorem State.tick_hNumFrames (s : State) : s.tick.hNumFrames = s.hNumFrames := by
  unfold State.tick; split <;> rfl
@[simp] theorem State.tick_hReserved2 (s : State) : s.tick.hReserved2 = s.hReserved2 := by
  unfold State.tick; split <;> rfl
@[simp] theorem State.tick_hFrameRate (s : State) : s.tick.hFrameRate = s.hFrameRate := by
  unfold State.tick; split <;> rfl
@[simp] theorem State.tick_hWidth (s : State) : s.tick.hWidth = s.hWidth := by
  unfold State.tick; split <;> rfl
@[simp] theorem State.tick_hHeight (s : State) : s.tick.hHeight = s.hHeight := by
  unfold State.tick; split <;> rfl
@[simp] theorem State.tick_table (s : State) : s.tick.table = s.table := by
  unfold State.tick; split <;> rfl
@[simp] theorem State.tick_tLen (s : State) : s.tick.tLen = s.tLen := by
  unfold State.tick; split <;> rfl
@[simp] theorem State.tick_tValid (s : State) : s.tick.tValid = s.tValid := by
  unfold State.tick; split <;> rfl
@[simp] theorem State.tick_phase (s : State) : s.tick.phase = s.phase := by
  unfold State.tick; split <;> rfl
@[simp] theorem State.tick_idx (s : State) : s.tick.idx = s.idx := by
  unfold State.tick; split <;> rfl
@[simp] theorem State.tick_cursor (s : State) : s.tick.cursor = s.cursor := by
  unfold State.tick; split <;> rfl
@[simp] theorem State.tick_dataBase (s : State) : s.tick.dataBase = s.dataBase := by
  unfold State.tick; split <;> rfl
@[simp] theorem State.tick_spanStart (s : State) : s.tick.spanStart = s.spanStart := by
  unfold State.tick; split <;> rfl
@[simp] theorem State.tick_spanEnd (s : State) : s.tick.spanEnd = s.spanEnd := by
  unfold State.tick; split <;> rfl
@[simp] theorem State.tick_plen (s : State) : s.tick.plen = s.plen := by
  unfold State.tick; split <;> rfl
@[simp] theorem State.tick_framesOut (s : State) : s.tick.framesOut = s.framesOut := by
  unfold State.tick; split <;> rfl
@[simp] theorem State.tick_cbuf (s : State) : s.tick.cbuf = s.cbuf := by
  unfold State.tick; split <;> rfl
@[simp] theorem State.tick_pbuf (s : State) : s.tick.pbuf = s.pbuf := by
  unfold State.tick; split <;> rfl
@[simp] theorem State.tick_raster (s : State) : s.tick.raster = s.raster := by
  unfold State.tick; split <;> rfl
@[simp] theorem State.tick_out (s : State) : s.tick.out = s.out := by
  unfold State.tick; split <;> rfl
@[simp] theorem State.tick_errCode (s : State) : s.tick.errCode = s.errCode := by
  unfold State.tick; split <;> rfl
@[simp] theorem State.tick_errIndex (s : State) : s.tick.errIndex = s.errIndex := by
  unfold State.tick; split <;> rfl
@[simp] theorem State.tick_errOffset (s : State) : s.tick.errOffset = s.errOffset := by
  unfold State.tick; split <;> rfl
@[simp] theorem State.tick_stream (s : State) : s.tick.stream = s.stream := by
  unfold State.tick; split <;> rfl
@[simp] theorem State.tick_streamLen (s : State) : s.tick.streamLen = s.streamLen := by
  unfold State.tick; split <;> rfl
@[simp] theorem State.tick_ioAnswers (s : State) : s.tick.ioAnswers = s.ioAnswers := by
  unfold State.tick; split <;> rfl
@[simp] theorem State.tick_inflateAnswers (s : State) : s.tick.inflateAnswers = s.inflateAnswers := by
  unfold State.tick; split <;> rfl
@[simp] theorem State.tick_emptyFirst (s : State) : s.tick.emptyFirst = s.emptyFirst := by
  unfold State.tick; split <;> rfl
@[simp] theorem State.tick_answers (s : State) : s.tick.answers = s.answers := by
  unfold State.tick; split <;> rfl

theorem State.tick_of_inbox_nil (s : State) (h : s.inbox = []) : s.tick = s := by
  unfold State.tick; rw [h]

@[simp] theorem State.tick_inbox_nil (s : State) (h : s.inbox = []) : s.tick.inbox = [] := by
  rw [s.tick_of_inbox_nil h, h]

theorem State.dueRequest_of_inbox_nil (s : State) (h : s.inbox = []) : s.dueRequest = none := by
  unfold State.dueRequest; rw [h]

end Sys2Proof.Machine
end

