-- ==== Sys2Proof/Laws/Ops.lean ====
section
/-! SUPPORT. One lemma for each shared operation: everything it can answer. -/

namespace Sys2Proof.Machine

/-! ## Elements without a value -/

@[simp] theorem needValue_some {α : Type} (e : Elem) (x : α) (k : α → Result) :
    needValue e (some x) k = k x := rfl

@[simp] theorem needValue_none {α : Type} (e : Elem) (k : α → Result) :
    needValue e none k = .fault (.noValue e) := rfl

/-- A step that needs a value and answers a next state has found one. -/
theorem needValue_eq_next {α : Type} {e : Elem} {v : Option α} {k : α → Result} {t : State} :
    needValue e v k = .next t ↔ ∃ x, v = some x ∧ k x = .next t := by
  cases v <;> simp

/-- A step that needs a value stops where the element holds none, or where what it goes on with stops. -/
theorem needValue_eq_fault {α : Type} {e : Elem} {v : Option α} {k : α → Result} {f : Fault} :
    needValue e v k = .fault f ↔ (v = none ∧ f = .noValue e) ∨ ∃ x, v = some x ∧ k x = .fault f := by
  cases v <;> simp [eq_comm]

/-- A step that needs a value the element holds goes on with it. -/
theorem needValue_of {α : Type} {e : Elem} {v : Option α} {x : α} {k : α → Result} (h : v = some x) :
    needValue e v k = k x := by rw [h, needValue_some]

/-! ## The fields of an ENTRY -/

/-- EOFF is the division of the word by 4 (40_entry_codec R121). -/
theorem eoff_toNat (e : Word) : (eoff e).toNat = e.toNat / 4 := by
  have := e.isLt
  simp only [eoff, entryOffset, BitVec.toNat_setWidth, BitVec.extractLsb'_toNat,
    Nat.shiftRight_eq_div_pow]
  omega

/-- An entry is Empty-typed where its low two bits are 00 (40_entry_codec R122). -/
theorem etype_eq_empty_iff (e : Word) : etype e = .empty ↔ e.toNat % 4 = 0 := by
  unfold etype entryType FrameType.ofTag
  have h : (BitVec.extractLsb' 0 2 e).toNat = e.toNat % 4 := by simp
  rw [h]
  have := Nat.mod_lt e.toNat (show 0 < 4 by omega)
  generalize e.toNat % 4 = k at *
  have : k = 0 ∨ k = 1 ∨ k = 2 ∨ k = 3 := by omega
  rcases this with rfl | rfl | rfl | rfl <;> simp

/-! ## START and the STREAM it takes -/

@[simp] theorem State.presented_length (s : State) (b : List Byte) (n : Nat) :
    (s.presented b n).length = n := by
  simp [State.presented]; omega

/-- A STREAM of STREAM_LEN bytes is presented as it is (70_reset_and_hazards R262 item 3). -/
theorem State.presented_of_length (s : State) {b : List Byte} {n : Nat} (h : b.length = n) :
    s.presented b n = b := by
  subst h; simp [State.presented]

/-- What a session's STREAM holds: the host's bytes, a free byte where they end before STREAM_LEN, and
nothing at or past STREAM_LEN. -/
theorem State.start_read (s : State) (b : List Byte) (n : Word) (a : Nat) :
    (s.start b n).stream.read a =
      if a < n.toNat then b.getD a (Config.absentByte s.inbox.length a) else 0 := by
  have h := Memory.read_ofBytes 0 (s.presented b n.toNat) a
  rw [Nat.zero_add] at h
  rw [State.start_stream, h, List.getD_eq_getElem?_getD, List.getD_eq_getElem?_getD]
  split
  · next hn =>
    by_cases hb : a < b.length
    · rw [State.presented, List.getElem?_append_left (by simp; omega), List.getElem?_take, if_pos hn,
        List.getElem?_eq_getElem hb]
      rfl
    · rw [State.presented, List.getElem?_append_right (by simp; omega),
        List.getElem?_eq_none (l := b) (by omega)]
      have hm : min n.toNat b.length = b.length := by omega
      simp [hm, show a - b.length < n.toNat - b.length by omega,
        show b.length + (a - b.length) = a by omega]
  · next hn => simp [show n.toNat ≤ a by omega]

/-! ## Reads of the STREAM -/

/-- `MemRead` answers bytes only inside the STREAM, and they are the STREAM's (20_memory R64). -/
theorem State.memRead_eq_bytes {s : State} {a n : Nat} {b : List Byte} :
    s.memRead a n = .bytes b ↔
      a + n ≤ s.streamLen.toNat ∧ s.ioAnswers.lookup (a, n) = none ∧ b = s.stream.readBytes a n := by
  unfold State.memRead
  split
  · simp; omega
  · next h =>
    have h' : a + n ≤ s.streamLen.toNat := by omega
    cases hl : s.ioAnswers.lookup (a, n) with
    | none => simp [h', eq_comm]
    | some x => cases x <;> simp

/-- `MemRead` fails past STREAM_LEN or where the IoFail oracle says so (20_memory R64). -/
theorem State.memRead_eq_fail {s : State} {a n : Nat} :
    s.memRead a n = .fail ↔
      s.streamLen.toNat < a + n ∨ s.ioAnswers.lookup (a, n) = some .fail := by
  unfold State.memRead
  split
  · simp; omega
  · next h =>
    have h' : ¬ s.streamLen.toNat < a + n := h
    cases hl : s.ioAnswers.lookup (a, n) with
    | none => simp [h']
    | some x => cases x <;> simp [h']

theorem State.memRead_bytes_length {s : State} {a n : Nat} {b : List Byte}
    (h : s.memRead a n = .bytes b) : b.length = n := by
  rw [(State.memRead_eq_bytes.1 h).2.2, Memory.readBytes_length]

/-- `MemRead` answers nothing only where the state lists that read as never answered (93 U12). -/
theorem State.memRead_eq_never {s : State} {a n : Nat} :
    s.memRead a n = .never ↔
      a + n ≤ s.streamLen.toNat ∧ s.ioAnswers.lookup (a, n) = some .never := by
  unfold State.memRead
  split
  · simp; omega
  · next h =>
    have h' : a + n ≤ s.streamLen.toNat := by omega
    cases hl : s.ioAnswers.lookup (a, n) with
    | none => simp
    | some x => cases x <;> simp [h']

/-- The table read answers words only if every entry's read does, one word for each. -/
theorem State.readEntries_eq_words {s : State} {count j : Nat} {ws : List Word} :
    s.readEntries count j = .words ws ↔
      ws.length = count ∧
        ∀ k, k < count → ∃ b, s.memRead (28 + 4 * (j + k)) 4 = .bytes b ∧ ws[k]? = some (wordOf b) := by
  induction count generalizing j ws with
  | zero =>
    cases ws <;> simp [State.readEntries]
  | succ n ih =>
    simp only [State.readEntries, Config.headerSize, Config.entrySize]
    constructor
    · intro h
      split at h
      · cases h
      · cases h
      · next b hb =>
        split at h
        · next ws' hw =>
          cases h
          obtain ⟨hl, hk⟩ := ih.1 hw
          refine ⟨by simp [hl], fun k hk' => ?_⟩
          cases k with
          | zero => exact ⟨b, hb, by simp⟩
          | succ k =>
            obtain ⟨c, hc, hg⟩ := hk k (by omega)
            refine ⟨c, ?_, by simpa using hg⟩
            rw [← hc]; congr 2; omega
        · cases h
        · cases h
    · rintro ⟨hl, hk⟩
      obtain ⟨b, hb, hg⟩ := hk 0 (by omega)
      rw [Nat.add_zero] at hb
      rw [hb]
      cases ws with
      | nil => simp at hl
      | cons w ws =>
        have hrest : s.readEntries n (j + 1) = .words ws := by
          refine ih.2 ⟨by simpa using hl, fun k hk' => ?_⟩
          obtain ⟨c, hc, hg'⟩ := hk (k + 1) (by omega)
          refine ⟨c, ?_, by simpa using hg'⟩
          rw [← hc]; congr 2; omega
        rw [hrest]
        simp at hg
        simp [hg]

/-- The table read fails at the first entry whose read fails, all before it being readable. -/
theorem State.readEntries_eq_failed {s : State} {count j m : Nat} :
    s.readEntries count j = .failed m ↔
      ∃ k, k < count ∧ m = j + k ∧ s.memRead (28 + 4 * (j + k)) 4 = .fail ∧
        ∀ i, i < k → ∃ b, s.memRead (28 + 4 * (j + i)) 4 = .bytes b := by
  induction count generalizing j with
  | zero => simp [State.readEntries]
  | succ n ih =>
    simp only [State.readEntries, Config.headerSize, Config.entrySize]
    constructor
    · intro h
      split at h
      · cases h
      · next hf =>
        cases h
        exact ⟨0, by omega, by omega, hf, fun i hi => by omega⟩
      · next b hb =>
        split at h
        · cases h
        · next m' hm =>
          cases h
          obtain ⟨k, hk, hm', hf, hall⟩ := ih.1 hm
          refine ⟨k + 1, by omega, by omega, ?_, fun i hi => ?_⟩
          · rw [← hf]; congr 2; omega
          · cases i with
            | zero => exact ⟨b, hb⟩
            | succ i =>
              obtain ⟨c, hc⟩ := hall i (by omega)
              refine ⟨c, ?_⟩
              rw [← hc]; congr 2; omega
        · cases h
    · rintro ⟨k, hk, rfl, hf, hall⟩
      cases k with
      | zero =>
        rw [Nat.add_zero] at hf
        rw [hf]; rfl
      | succ k =>
        obtain ⟨b, hb⟩ := hall 0 (by omega)
        rw [Nat.add_zero] at hb
        have hrest : s.readEntries n (j + 1) = .failed (j + (k + 1)) := by
          refine ih.2 ⟨k, by omega, by omega, ?_, fun i hi => ?_⟩
          · rw [← hf]; congr 2; omega
          · obtain ⟨c, hc⟩ := hall (i + 1) (by omega)
            refine ⟨c, ?_⟩
            rw [← hc]; congr 2; omega
        rw [hb, hrest]

/-! ## The sequencer's shared decisions -/

/-- S_TVALID passes to DONE or S_SPAN, or raises MalformedTable (42_frame_table R164). -/
theorem State.checkTerminator_cases (s : State) (v : Bool) (n : Index) :
    (v = true ∧ n.toNat = 1 ∧ s.checkTerminator v n = { s with phase := .done }) ∨
    (v = true ∧ n.toNat ≠ 1 ∧ s.checkTerminator v n = { s with phase := .sSpan }) ∨
    (v = false ∧ s.checkTerminator v n = s.raise .malformedTable none (28 + 4 * n.toNat - 4)) := by
  unfold State.checkTerminator
  cases v
  · exact .inr (.inr ⟨rfl, rfl⟩)
  · by_cases h : n.toNat = 1
    · exact .inl ⟨rfl, h, by simp [h]⟩
    · exact .inr (.inl ⟨rfl, h, by simp [h]⟩)

/-- S_SPAN raises InvalidRange or writes both bounds (43_frame_extraction R179 to R181). -/
theorem State.resolveSpan_cases (s : State) (d a z : Word) :
    ((z.toNat < a.toNat ∨ s.streamLen.toNat < d.toNat + z.toNat) ∧
      s.resolveSpan d a z = s.raise .invalidRange (some s.idx) (d.toNat + a.toNat)) ∨
    (a.toNat ≤ z.toNat ∧ d.toNat + z.toNat ≤ s.streamLen.toNat ∧
      s.resolveSpan d a z =
        { s with
          spanStart := some (BitVec.ofNat 32 (d.toNat + a.toNat)),
          spanEnd := some (BitVec.ofNat 32 (d.toNat + z.toNat)),
          phase := .sFetch }) := by
  unfold State.resolveSpan
  by_cases h1 : d.toNat + z.toNat < d.toNat + a.toNat
  · rw [if_pos h1]
    exact .inl ⟨.inl (by omega), rfl⟩
  · rw [if_neg h1]
    by_cases h2 : d.toNat + z.toNat > s.streamLen.toNat
    · rw [if_pos h2]
      exact .inl ⟨.inr (by omega), rfl⟩
    · rw [if_neg h2]
      exact .inr ⟨by omega, by omega, rfl⟩

/-- S_NEXT stops at an early terminator or at the end of the table, or goes to the next frame
(43_frame_extraction R187). -/
theorem State.advance_cases (s : State) (t : FrameType) (n : Index) :
    ((t = .empty ∨ s.idx.toNat + 2 = n.toNat) ∧ s.advance t n = { s with phase := .done }) ∨
    (t ≠ .empty ∧ s.idx.toNat + 2 ≠ n.toNat ∧
      s.advance t n = { s with idx := s.idx + 1, phase := .sSpan }) := by
  unfold State.advance
  by_cases h1 : t = .empty
  · by_cases h2 : s.idx.toNat + 2 = n.toNat
    · exact .inl ⟨.inl h1, by simp [h2]⟩
    · exact .inl ⟨.inl h1, by simp [h1, h2]⟩
  · by_cases h2 : s.idx.toNat + 2 = n.toNat
    · exact .inl ⟨.inr h2, by simp [h2]⟩
    · exact .inr ⟨h1, h2, by simp [h1, h2]⟩

theorem raiseAtSpan_eq_next {s t : State} {e : ErrCode} :
    raiseAtSpan s e = .next t ↔
      ∃ a, s.spanStart = some a ∧ t = s.raise e (some s.idx) a.toNat := by
  unfold raiseAtSpan
  rw [needValue_eq_next]
  simp [eq_comm]

/-- Raising with SPAN_START as the context stops where SPAN_START holds no value. -/
theorem raiseAtSpan_eq_fault {s : State} {e : ErrCode} {f : Fault} :
    raiseAtSpan s e = .fault f ↔ s.spanStart = none ∧ f = .noValue .spanStart := by
  simp [raiseAtSpan, needValue_eq_fault]

/-- A word of `TABLE[0 .. n-1]` holds no value where the table held is shorter (10_state R27). -/
theorem State.heldTable_eq_none (s : State) (n : Nat) :
    s.heldTable n = none ↔ s.table.length < n := by
  unfold State.heldTable
  split <;> simp <;> omega

end Sys2Proof.Machine
end

