-- ==== Sys2Proof/Laws/PerInstr.lean ====
section
/-! SUPPORT. For each instruction, the shape of its encoding: an ENTRY is 4 bytes and a HEADER 28
(30_encoding R90), and a request begins with its OPSEL, which is not the reserved 0x00 (R105). -/

namespace Sys2Proof.Laws.EncodeShape

def Statement (i : Instr) : Prop :=
  (i.format = .entry → (encode i).length = 4) ∧
    (i.format = .header → (encode i).length = 28) ∧
    (i.format = .opsel → i.opsel ≠ 0 ∧ encode i = i.opsel.setWidth 8 :: i.operands)

/-- An ENTRY of any offset and type is four bytes. -/
theorem entry_shape (i : Instr) (w : Word) (hf : i.format = .entry) (he : encode i = wordBytes w) :
    Statement i := by
  refine ⟨fun _ => by rw [he, wordBytes_length], fun h => ?_, fun h => ?_⟩ <;>
    · rw [hf] at h; cases h

/-- A request is its OPSEL followed by its operands. -/
theorem opsel_shape (i : Instr) (hf : i.format = .opsel) (hc : i.opsel ≠ 0)
    (he : encode i = i.opsel.setWidth 8 :: i.operands) : Statement i := by
  refine ⟨fun h => ?_, fun h => ?_, fun _ => ⟨hc, he⟩⟩ <;>
    · rw [hf] at h; cases h

theorem entryEmpty (o : BitVec 30) : Statement (.entryEmpty o) := entry_shape _ _ rfl rfl
theorem entryIFrame (o : BitVec 30) : Statement (.entryIFrame o) := entry_shape _ _ rfl rfl
theorem entryPFrame (o : BitVec 30) : Statement (.entryPFrame o) := entry_shape _ _ rfl rfl
theorem entryIPFrame (o : BitVec 30) : Statement (.entryIPFrame o) := entry_shape _ _ rfl rfl

theorem header (h : Header) : Statement (.header h) := by
  refine ⟨(fun hf => by cases hf), (fun _ => ?_), (fun hf => by cases hf)⟩
  rw [encode, headerBytes_length]

theorem eoff (e : Word) : Statement (.eoff e) := opsel_shape _ rfl (by simp [Instr.opsel]) rfl
theorem etype (e : Word) : Statement (.etype e) := opsel_shape _ rfl (by simp [Instr.opsel]) rfl
theorem epack (o : Word) (t : FrameType) : Statement (.epack o t) :=
  opsel_shape _ rfl (by simp [Instr.opsel]) rfl
theorem hparse (b : List Byte) : Statement (.hparse b) := opsel_shape _ rfl (by simp [Instr.opsel]) rfl
theorem hbuild (r : Word) (w h : Half) (n : Option Half) : Statement (.hbuild r w h n) :=
  opsel_shape _ rfl (by simp [Instr.opsel]) rfl
theorem tvalid (t : List Word) : Statement (.tvalid t) := opsel_shape _ rfl (by simp [Instr.opsel]) rfl
theorem rexp (v : Byte) : Statement (.rexp v) := opsel_shape _ rfl (by simp [Instr.opsel]) rfl
theorem rasm (p : List Byte) (w h : Half) : Statement (.rasm p w h) :=
  opsel_shape _ rfl (by simp [Instr.opsel]) rfl
theorem sHdr : Statement .sHdr := opsel_shape _ rfl (by simp [Instr.opsel]) rfl
theorem sDim : Statement .sDim := opsel_shape _ rfl (by simp [Instr.opsel]) rfl
theorem sTread : Statement .sTread := opsel_shape _ rfl (by simp [Instr.opsel]) rfl
theorem sTvalid : Statement .sTvalid := opsel_shape _ rfl (by simp [Instr.opsel]) rfl
theorem sSpan : Statement .sSpan := opsel_shape _ rfl (by simp [Instr.opsel]) rfl
theorem sFetch : Statement .sFetch := opsel_shape _ rfl (by simp [Instr.opsel]) rfl
theorem sInfl : Statement .sInfl := opsel_shape _ rfl (by simp [Instr.opsel]) rfl
theorem sExpand : Statement .sExpand := opsel_shape _ rfl (by simp [Instr.opsel]) rfl
theorem sNext : Statement .sNext := opsel_shape _ rfl (by simp [Instr.opsel]) rfl
theorem reset : Statement .reset := opsel_shape _ rfl (by simp [Instr.opsel]) rfl
theorem run (b : List Byte) (n : Word) : Statement (.run b n) :=
  opsel_shape _ rfl (by simp [Instr.opsel]) rfl

end Sys2Proof.Laws.EncodeShape
end

