-- ==== Sys2Proof/Laws/Steps.lean ====
section
/-! SUPPORT. What a step can do, said once: one lemma for each step operation, one for what the host may
ask, and one for the step of the machine. -/

namespace Sys2Proof.Machine

/-! ## The step operations -/

/-- S_HDR does not complete, raises IoError or InvalidMagic, or latches the header. -/
theorem execSHdr_cases {s t : State} (h : execSHdr s = .next t) :
    (s.memRead 0 28 = .never ∧ t = s) ∨
    (s.memRead 0 28 = .fail ∧ t = s.raise .ioError none 0) ∨
    (∃ b, s.memRead 0 28 = .bytes b ∧ b.take 12 ≠ Config.magic.toList ∧ t = s.raise .invalidMagic none 0) ∨
    (∃ b, s.memRead 0 28 = .bytes b ∧ b.take 12 = Config.magic.toList ∧ t = s.latchHeader (headerOf b)) := by
  unfold execSHdr at h
  simp only [Config.headerSize, Host.Outcome.next.injEq] at h
  subst h
  split
  · next hm => exact .inl ⟨hm, rfl⟩
  · next hm => exact .inr (.inl ⟨hm, rfl⟩)
  · next b hm =>
    by_cases hb : b.take 12 = Config.magic.toList
    · exact .inr (.inr (.inr ⟨b, hm, hb, by simp [hparse, hb, State.acceptHeader]⟩))
    · exact .inr (.inr (.inl ⟨b, hm, hb, by simp [hparse, hb, State.acceptHeader]⟩))

/-- S_DIM writes PLEN or raises InvalidDimensions. -/
theorem execSDim_cases {s t : State} (h : execSDim s = .next t) :
    ∃ w v, s.hWidth = some w ∧ s.hHeight = some v ∧
      ((dimOk w v = true ∧
          t = { s with plen := some (BitVec.ofNat 32 (payloadLength w v)), phase := .sTread }) ∨
        (dimOk w v = false ∧ t = s.raise .invalidDimensions none 24)) := by
  unfold execSDim at h
  obtain ⟨w, hw, h⟩ := needValue_eq_next.1 h
  obtain ⟨v, hv, h⟩ := needValue_eq_next.1 h
  cases h
  refine ⟨w, v, hw, hv, ?_⟩
  cases hd : dimOk w v
  · exact .inr ⟨rfl, by simp⟩
  · exact .inl ⟨rfl, by simp⟩

/-- S_TREAD does not complete, raises IoError at an entry, or latches the table. -/
theorem execSTread_cases {s t : State} (h : execSTread s = .next t) :
    ∃ n, s.hNumFrames = some n ∧
      ((s.readEntries (n.toNat + 1) 0 = .never ∧ t = s) ∨
        (∃ j, s.readEntries (n.toNat + 1) 0 = .failed j ∧ t = s.raise .ioError none (28 + 4 * j)) ∨
        (∃ ws, s.readEntries (n.toNat + 1) 0 = .words ws ∧ t = s.latchTable ws (n.toNat + 1))) := by
  unfold execSTread at h
  obtain ⟨n, hn, h⟩ := needValue_eq_next.1 h
  cases h
  refine ⟨n, hn, ?_⟩
  split
  · next hr => exact .inl ⟨hr, rfl⟩
  · next j hr => exact .inr (.inl ⟨j, hr, rfl⟩)
  · next ws hr => exact .inr (.inr ⟨ws, hr, rfl⟩)

/-- S_TVALID decides on the held table. -/
theorem execSTvalid_cases {s t : State} (h : execSTvalid s = .next t) :
    ∃ n, s.tLen = some n ∧ n.toNat ≤ s.table.length ∧
      t = s.checkTerminator (tvalid (s.table.take n.toNat)) n := by
  unfold execSTvalid at h
  obtain ⟨n, hn, h⟩ := needValue_eq_next.1 h
  obtain ⟨u, hu, h⟩ := needValue_eq_next.1 h
  cases h
  unfold State.heldTable at hu
  split at hu
  · next hle =>
    cases hu
    exact ⟨n, hn, hle, rfl⟩
  · cases hu

/-- S_SPAN resolves the range of the pair of entries at IDX. -/
theorem execSSpan_cases {s t : State} (h : execSSpan s = .next t) :
    ∃ d e e', s.dataBase = some d ∧ s.table[s.idx.toNat]? = some e ∧
      s.table[s.idx.toNat + 1]? = some e' ∧ t = s.resolveSpan d (eoff e) (eoff e') := by
  unfold execSSpan at h
  obtain ⟨d, hd, h⟩ := needValue_eq_next.1 h
  obtain ⟨e, he, h⟩ := needValue_eq_next.1 h
  obtain ⟨e', he', h⟩ := needValue_eq_next.1 h
  cases h
  exact ⟨d, e, e', hd, he, he', rfl⟩

/-- S_FETCH does not complete, raises IoError, or holds the span in CBUF. -/
theorem execSFetch_cases {s t : State} (h : execSFetch s = .next t) :
    ∃ a z, s.spanStart = some a ∧ s.spanEnd = some z ∧ a.toNat ≤ z.toNat ∧
      ((s.memRead a.toNat (z.toNat - a.toNat) = .never ∧ t = s) ∨
        (s.memRead a.toNat (z.toNat - a.toNat) = .fail ∧
          t = s.raise .ioError (some s.idx) a.toNat) ∨
        (∃ b, s.memRead a.toNat (z.toNat - a.toNat) = .bytes b ∧
          t = { s with cbuf := some b, cursor := z, phase := .sInfl })) := by
  unfold execSFetch at h
  obtain ⟨a, ha, h⟩ := needValue_eq_next.1 h
  obtain ⟨z, hz, h⟩ := needValue_eq_next.1 h
  split at h
  · cases h
  · next hle =>
    cases h
    refine ⟨a, z, ha, hz, by omega, ?_⟩
    split
    · next hr => exact .inl ⟨hr, rfl⟩
    · next hr => exact .inr (.inl ⟨hr, rfl⟩)
    · next b hr => exact .inr (.inr ⟨b, hr, rfl⟩)

/-- S_INFL does not complete, raises CorruptFrame, or holds the payload in PBUF. -/
theorem execSInfl_cases {s t : State} (h : execSInfl s = .next t) :
    ∃ c, s.cbuf = some c ∧
      ((s.askInflate c = .never ∧ t = s) ∨
        (∃ a, (s.askInflate c = .fail ∨
            ∃ p n, s.askInflate c = .ok p ∧ s.plen = some n ∧ p.length ≠ n.toNat) ∧
          s.spanStart = some a ∧ t = s.raise .corruptFrame (some s.idx) a.toNat) ∨
        (∃ p n, s.askInflate c = .ok p ∧ s.plen = some n ∧ p.length = n.toNat ∧
          t = { s with pbuf := some p, phase := .sExpand })) := by
  unfold execSInfl at h
  obtain ⟨c, hc, h⟩ := needValue_eq_next.1 h
  refine ⟨c, hc, ?_⟩
  split at h
  · next hr =>
    cases h
    exact .inl ⟨hr, rfl⟩
  · next hr =>
    obtain ⟨a, ha, ht⟩ := raiseAtSpan_eq_next.1 h
    exact .inr (.inl ⟨a, .inl hr, ha, ht⟩)
  · next p hr =>
    obtain ⟨n, hn, h⟩ := needValue_eq_next.1 h
    split at h
    · next hl =>
      cases h
      exact .inr (.inr ⟨p, n, hr, hn, hl, rfl⟩)
    · next hl =>
      obtain ⟨a, ha, ht⟩ := raiseAtSpan_eq_next.1 h
      exact .inr (.inl ⟨a, .inr ⟨p, n, hr, hn, hl⟩, ha, ht⟩)

/-- S_EXPAND emits the raster of the payload. -/
theorem execSExpand_cases {s t : State} (h : execSExpand s = .next t) :
    ∃ p w v, s.pbuf = some p ∧ s.hWidth = some w ∧ s.hHeight = some v ∧ rasmDomain p w v = true ∧
      t = { s with
        raster := some (rasm p w v),
        out := s.out ++ [⟨BitVec.ofNat 16 (s.idx.toNat + 1), w, v, rasm p w v⟩],
        framesOut := s.framesOut + 1, phase := .sNext } := by
  unfold execSExpand at h
  obtain ⟨p, hp, h⟩ := needValue_eq_next.1 h
  obtain ⟨w, hw, h⟩ := needValue_eq_next.1 h
  obtain ⟨v, hv, h⟩ := needValue_eq_next.1 h
  split at h
  · next hd =>
    cases h
    exact ⟨p, w, v, hp, hw, hv, hd, rfl⟩
  · cases h

/-- S_NEXT decides on the type of the entry after IDX. -/
theorem execSNext_cases {s t : State} (h : execSNext s = .next t) :
    ∃ e n, s.table[s.idx.toNat + 1]? = some e ∧ s.tLen = some n ∧ t = s.advance (etype e) n := by
  unfold execSNext at h
  obtain ⟨e, he, h⟩ := needValue_eq_next.1 h
  obtain ⟨n, hn, h⟩ := needValue_eq_next.1 h
  cases h
  exact ⟨e, n, he, hn, rfl⟩

/-! ## Where a step operation stops -/

/-- S_DIM stops where H_WIDTH or H_HEIGHT holds no value. -/
theorem execSDim_eq_fault {s : State} {f : Fault} : execSDim s = .fault f ↔
    (s.hWidth = none ∧ f = .noValue .hWidth) ∨
    ∃ w, s.hWidth = some w ∧ s.hHeight = none ∧ f = .noValue .hHeight := by
  simp [execSDim, needValue_eq_fault]

/-- S_TREAD stops where H_NUMFRAMES holds no value. -/
theorem execSTread_eq_fault {s : State} {f : Fault} :
    execSTread s = .fault f ↔ s.hNumFrames = none ∧ f = .noValue .hNumFrames := by
  simp [execSTread, needValue_eq_fault]

/-- S_TVALID stops where T_LEN, or a word of the table it counts, holds no value. -/
theorem execSTvalid_eq_fault {s : State} {f : Fault} : execSTvalid s = .fault f ↔
    (s.tLen = none ∧ f = .noValue .tLen) ∨
    ∃ n, s.tLen = some n ∧ s.table.length < n.toNat ∧ f = .noValue (.table (n.toNat - 1)) := by
  simp [execSTvalid, needValue_eq_fault, State.heldTable_eq_none]

/-- S_SPAN stops where DATA_BASE or one of the two entries at IDX holds no value. -/
theorem execSSpan_eq_fault {s : State} {f : Fault} : execSSpan s = .fault f ↔
    (s.dataBase = none ∧ f = .noValue .dataBase) ∨
    ∃ d, s.dataBase = some d ∧
      ((s.table[s.idx.toNat]? = none ∧ f = .noValue (.table s.idx.toNat)) ∨
        ∃ e, s.table[s.idx.toNat]? = some e ∧ s.table[s.idx.toNat + 1]? = none ∧
          f = .noValue (.table (s.idx.toNat + 1))) := by
  simp [execSSpan, needValue_eq_fault]

/-- S_FETCH stops where SPAN_START or SPAN_END holds no value, and where they are reversed. -/
theorem execSFetch_eq_fault {s : State} {f : Fault} : execSFetch s = .fault f ↔
    (s.spanStart = none ∧ f = .noValue .spanStart) ∨
    ∃ a, s.spanStart = some a ∧ ((s.spanEnd = none ∧ f = .noValue .spanEnd) ∨
      ∃ z, s.spanEnd = some z ∧ z.toNat < a.toNat ∧ f = .spanReversed) := by
  unfold execSFetch
  simp only [needValue_eq_fault]
  refine or_congr Iff.rfl (exists_congr fun a => and_congr Iff.rfl
    (or_congr Iff.rfl (exists_congr fun z => and_congr Iff.rfl ?_)))
  split
  · next h => simp [h, eq_comm]
  · next h => simp [h]

/-- S_INFL stops where CBUF holds no value; PLEN, where Inflate gives a payload; SPAN_START, where
CorruptFrame is to be raised. -/
theorem execSInfl_eq_fault {s : State} {f : Fault} : execSInfl s = .fault f ↔
    (s.cbuf = none ∧ f = .noValue .cbuf) ∨
    ∃ c, s.cbuf = some c ∧
      ((s.askInflate c = .fail ∧ s.spanStart = none ∧ f = .noValue .spanStart) ∨
        ∃ p, s.askInflate c = .ok p ∧ ((s.plen = none ∧ f = .noValue .plen) ∨
          ∃ n, s.plen = some n ∧ p.length ≠ n.toNat ∧ s.spanStart = none ∧
            f = .noValue .spanStart)) := by
  unfold execSInfl
  rw [needValue_eq_fault]
  refine or_congr Iff.rfl (exists_congr fun c => and_congr Iff.rfl ?_)
  split
  · next h => simp [h]
  · next h => simp [h, raiseAtSpan_eq_fault]
  · next p h =>
    rw [needValue_eq_fault]
    simp only [h, reduceCtorEq, false_and, false_or, InflateAnswer.ok.injEq, exists_eq_left']
    refine or_congr Iff.rfl (exists_congr fun n => and_congr Iff.rfl ?_)
    split
    · next hl => simp [hl]
    · next hl => simp [hl, raiseAtSpan_eq_fault]

/-- S_EXPAND stops where PBUF, H_WIDTH or H_HEIGHT holds no value, and outside RASM's precondition. -/
theorem execSExpand_eq_fault {s : State} {f : Fault} : execSExpand s = .fault f ↔
    (s.pbuf = none ∧ f = .noValue .pbuf) ∨
    ∃ p, s.pbuf = some p ∧ ((s.hWidth = none ∧ f = .noValue .hWidth) ∨
      ∃ w, s.hWidth = some w ∧ ((s.hHeight = none ∧ f = .noValue .hHeight) ∨
        ∃ v, s.hHeight = some v ∧ rasmDomain p w v = false ∧ f = .rasmPrecondition)) := by
  unfold execSExpand
  simp only [needValue_eq_fault]
  refine or_congr Iff.rfl (exists_congr fun p => and_congr Iff.rfl (or_congr Iff.rfl
    (exists_congr fun w => and_congr Iff.rfl (or_congr Iff.rfl
      (exists_congr fun v => and_congr Iff.rfl ?_)))))
  split
  · next h => simp [h]
  · next h => simp [h, eq_comm]

/-- S_NEXT stops where the entry after IDX, or T_LEN, holds no value. -/
theorem execSNext_eq_fault {s : State} {f : Fault} : execSNext s = .fault f ↔
    (s.table[s.idx.toNat + 1]? = none ∧ f = .noValue (.table (s.idx.toNat + 1))) ∨
    ∃ e, s.table[s.idx.toNat + 1]? = some e ∧ s.tLen = none ∧ f = .noValue .tLen := by
  simp [execSNext, needValue_eq_fault]

/-- An ENTRY word stops where PHASE consults it and what is read beside it holds no value. -/
theorem consultEntry_eq_fault {o : BitVec 30} {ty : FrameType} {s : State} {f : Fault} :
    consultEntry o ty s = .fault f ↔
      (s.phase = .sSpan ∧ ((s.dataBase = none ∧ f = .noValue .dataBase) ∨
        ∃ d, s.dataBase = some d ∧ s.table[s.idx.toNat]? = none ∧ f = .noValue (.table s.idx.toNat))) ∨
      ((s.phase = .sTvalid ∨ s.phase = .sNext) ∧ s.tLen = none ∧ f = .noValue .tLen) := by
  unfold consultEntry
  cases s.phase <;> simp [needValue_eq_fault]

/-! ## Who moves -/

/-- The step operation a PHASE names (43_frame_extraction R188). -/
def Phase.stepInstr : Phase → Option Instr
  | .sHdr => some .sHdr
  | .sDim => some .sDim
  | .sTread => some .sTread
  | .sTvalid => some .sTvalid
  | .sSpan => some .sSpan
  | .sFetch => some .sFetch
  | .sInfl => some .sInfl
  | .sExpand => some .sExpand
  | .sNext => some .sNext
  | .idle | .done | .error => none

/-- The nine PHASEs with a step operation, each with its own. -/
theorem Phase.stepInstr_cases {p : Phase} {i : Instr} (h : p.stepInstr = some i) :
    (p = .sHdr ∧ i = .sHdr) ∨ (p = .sDim ∧ i = .sDim) ∨ (p = .sTread ∧ i = .sTread) ∨
    (p = .sTvalid ∧ i = .sTvalid) ∨ (p = .sSpan ∧ i = .sSpan) ∨ (p = .sFetch ∧ i = .sFetch) ∨
    (p = .sInfl ∧ i = .sInfl) ∨ (p = .sExpand ∧ i = .sExpand) ∨ (p = .sNext ∧ i = .sNext) := by
  revert h
  cases p <;> simp [Phase.stepInstr] <;> exact fun h => h.symm

/-- The sequencer fetches the step operation of its PHASE, unless it is held back. -/
theorem State.sequencerInstr_eq (s : State) :
    s.sequencerInstr = if s.heldBack then none else s.phase.stepInstr := by
  unfold State.sequencerInstr
  cases s.heldBack
  · cases s.phase <;> rfl
  · rfl

/-- The sequencer is held back only with EMPTY_FIRST_ENTRY = refuse. -/
theorem State.heldBack_of_process {s : State} (h : s.emptyFirst = .process) : s.heldBack = false := by
  simp [State.heldBack, h]

@[simp] theorem State.tick_heldBack (s : State) : s.tick.heldBack = s.heldBack := by
  simp [State.heldBack]

/-- What the host may have performed: a function operation, which answers and does nothing else, RESET,
START, or a refused RUN (30_encoding R105, R106). -/
theorem exec_hostMay {i : Instr} (hi : hostMay i = true) (s : State) :
    (∃ a, exec i s = .next (s.answer a)) ∨
    (i = .reset ∧ exec i s = .next s.toReset) ∨
    (∃ b n, i = .run b n ∧ s.phase = .idle ∧ exec i s = .next (s.start b n)) := by
  cases i with
  | eoff | etype | epack | hparse | hbuild | tvalid | rexp | rasm => exact .inl ⟨_, rfl⟩
  | reset => exact .inr (.inl ⟨rfl, rfl⟩)
  | run b n =>
    by_cases h : s.phase = .idle
    · exact .inr (.inr ⟨b, n, rfl, h, by simp [exec, execRun, h]⟩)
    · exact .inl ⟨.refused, by simp only [exec, execRun, if_neg h]⟩
  | _ => cases hi

/-- The host's turn always completes: an answer, RESET, or START. -/
theorem serve_cases (r : Request) (s : State) :
    (∃ a, serve r s = .next (s.answer a)) ∨
    (decodeOp r.opsel r.operands = .ok .reset ∧ serve r s = .next s.toReset) ∨
    (∃ b n, decodeOp r.opsel r.operands = .ok (.run b n) ∧ s.phase = .idle ∧
      serve r s = .next (s.start b n)) := by
  unfold serve
  cases hd : decodeOp r.opsel r.operands with
  | error e => exact .inl ⟨_, rfl⟩
  | ok i =>
    cases hi : hostMay i
    · exact .inl ⟨.refused, by simp [hi]⟩
    · rcases exec_hostMay hi s with ⟨a, h⟩ | ⟨rfl, h⟩ | ⟨b, n, rfl, hp, h⟩
      · exact .inl ⟨a, by simp [hi, h]⟩
      · exact .inr (.inl ⟨rfl, by simp [hi, h]⟩)
      · exact .inr (.inr ⟨b, n, rfl, hp, by simp [hi, h]⟩)

/-- One step: the host's turn, the step operation of PHASE, or nothing. -/
theorem step_cases (s : State) :
    (∃ r, s.dueRequest = some r ∧ step s = serve r s.takeRequest) ∨
    (∃ i, s.dueRequest = none ∧ s.heldBack = false ∧ s.phase.stepInstr = some i ∧
      step s = exec i s.tick) ∨
    (s.dueRequest = none ∧ (s.heldBack = true ∨ s.phase.stepInstr = none) ∧ step s = .next s.tick) := by
  cases hr : s.dueRequest with
  | some r => exact .inl ⟨r, rfl, by simp only [step, hr]⟩
  | none =>
    right
    have hs : step s = sequence s.tick := by simp only [step, hr]
    rw [hs, sequence, State.sequencerInstr_eq, State.tick_heldBack, State.tick_phase]
    cases hb : s.heldBack with
    | true => exact .inr ⟨rfl, .inl rfl, rfl⟩
    | false =>
      cases hi : s.phase.stepInstr with
      | some i => exact .inl ⟨i, rfl, rfl, rfl, rfl⟩
      | none => exact .inr ⟨rfl, .inr rfl, rfl⟩

/-- A request that is due is served. -/
theorem step_of_due {s : State} {r : Request} (h : s.dueRequest = some r) :
    step s = serve r s.takeRequest := by
  simp only [step, h]

/-- Where no request is due and the sequencer is not held back, it performs the step of its PHASE. -/
theorem step_of_phase {s : State} {i : Instr} (h : s.dueRequest = none) (hb : s.heldBack = false)
    (hi : s.phase.stepInstr = some i) : step s = exec i s.tick := by
  rcases step_cases s with ⟨r, h', _⟩ | ⟨j, _, _, hj, hs⟩ | ⟨_, hn, _⟩
  · rw [h] at h'; cases h'
  · rw [hi] at hj; cases hj; exact hs
  · simp [hb, hi] at hn

/-- A tick writes the inbox. -/
theorem State.tick_eq (s : State) : s.tick = { s with inbox := s.tick.inbox } := by
  unfold State.tick
  split <;> rfl

/-- One step of a run. -/
theorem run_succ {s t : State} (h : step s = .next t) (k : Nat) :
    Sys2Proof.core.run (k + 1) s = Sys2Proof.core.run k t := by
  have e := Host.Core.run.eq_2 Sys2Proof.core s k
  have h' : Sys2Proof.core.step s = .next t := h
  rw [h'] at e
  exact e

/-! ## What a step operation can do, in one list -/

/-- The step operation of PHASE leaves the state as it is, raises, or writes what its rule names and
goes to the next PHASE. -/
theorem exec_step_cases {s t : State} {i : Instr} (hi : s.phase.stepInstr = some i)
    (h : exec i s = .next t) :
    t = s ∨
    (∃ e index offset, e ≠ .none ∧ e ≠ .offsetTooLarge ∧ t = s.raise e index offset) ∨
    (s.phase = .sHdr ∧ ∃ d : Header, d.magic = Config.magic ∧ t = s.latchHeader d) ∨
    (s.phase = .sDim ∧ ∃ n, t = { s with plen := some n, phase := .sTread }) ∨
    (s.phase = .sTread ∧ ∃ ws n, t = s.latchTable ws n) ∨
    (s.phase = .sTvalid ∧ (t = { s with phase := .done } ∨ t = { s with phase := .sSpan })) ∨
    (s.phase = .sSpan ∧
      ∃ a z, t = { s with spanStart := some a, spanEnd := some z, phase := .sFetch }) ∨
    (s.phase = .sFetch ∧ ∃ b z, t = { s with cbuf := some b, cursor := z, phase := .sInfl }) ∨
    (s.phase = .sInfl ∧ ∃ p, t = { s with pbuf := some p, phase := .sExpand }) ∨
    (s.phase = .sExpand ∧ ∃ p w v, s.hWidth = some w ∧ s.hHeight = some v ∧ t = { s with
      raster := some (rasm p w v),
      out := s.out ++ [⟨BitVec.ofNat 16 (s.idx.toNat + 1), w, v, rasm p w v⟩],
      framesOut := s.framesOut + 1, phase := .sNext }) ∨
    (s.phase = .sNext ∧
      (t = { s with phase := .done } ∨ t = { s with idx := s.idx + 1, phase := .sSpan })) := by
  rcases Phase.stepInstr_cases hi with
    ⟨hp, rfl⟩ | ⟨hp, rfl⟩ | ⟨hp, rfl⟩ | ⟨hp, rfl⟩ | ⟨hp, rfl⟩ | ⟨hp, rfl⟩ | ⟨hp, rfl⟩ | ⟨hp, rfl⟩ |
    ⟨hp, rfl⟩ <;> simp only [hp, reduceCtorEq, false_and, true_and, false_or, or_false]
  · rcases execSHdr_cases h with ⟨_, rfl⟩ | ⟨_, rfl⟩ | ⟨_, _, _, rfl⟩ | ⟨b, hb, hm, rfl⟩
    · exact .inl rfl
    · exact .inr (.inl ⟨_, _, _, by simp, by simp, rfl⟩)
    · exact .inr (.inl ⟨_, _, _, by simp, by simp, rfl⟩)
    · have hl := State.memRead_bytes_length hb
      exact .inr (.inr ⟨_, (magicOf_eq_iff b _ (by omega)).2 hm, rfl⟩)
  · obtain ⟨_, _, _, _, ⟨_, rfl⟩ | ⟨_, rfl⟩⟩ := execSDim_cases h
    · exact .inr (.inr ⟨_, rfl⟩)
    · exact .inr (.inl ⟨_, _, _, by simp, by simp, rfl⟩)
  · obtain ⟨_, _, ⟨_, rfl⟩ | ⟨_, _, rfl⟩ | ⟨_, _, rfl⟩⟩ := execSTread_cases h
    · exact .inl rfl
    · exact .inr (.inl ⟨_, _, _, by simp, by simp, rfl⟩)
    · exact .inr (.inr ⟨_, _, rfl⟩)
  · obtain ⟨n, _, _, rfl⟩ := execSTvalid_cases h
    rcases s.checkTerminator_cases (tvalid (s.table.take n.toNat)) n with
      ⟨_, _, h'⟩ | ⟨_, _, h'⟩ | ⟨_, h'⟩
    · exact .inr (.inr (.inl h'))
    · exact .inr (.inr (.inr h'))
    · exact .inr (.inl ⟨_, _, _, by simp, by simp, h'⟩)
  · obtain ⟨d, e, e', _, _, _, rfl⟩ := execSSpan_cases h
    rcases s.resolveSpan_cases d (eoff e) (eoff e') with ⟨_, h'⟩ | ⟨_, _, h'⟩
    · exact .inr (.inl ⟨_, _, _, by simp, by simp, h'⟩)
    · exact .inr (.inr ⟨_, _, h'⟩)
  · obtain ⟨_, _, _, _, _, ⟨_, rfl⟩ | ⟨_, rfl⟩ | ⟨_, _, rfl⟩⟩ := execSFetch_cases h
    · exact .inl rfl
    · exact .inr (.inl ⟨_, _, _, by simp, by simp, rfl⟩)
    · exact .inr (.inr ⟨_, _, rfl⟩)
  · obtain ⟨_, _, ⟨_, rfl⟩ | ⟨_, _, _, rfl⟩ | ⟨_, _, _, _, _, rfl⟩⟩ := execSInfl_cases h
    · exact .inl rfl
    · exact .inr (.inl ⟨_, _, _, by simp, by simp, rfl⟩)
    · exact .inr (.inr ⟨_, rfl⟩)
  · obtain ⟨_, _, _, _, hw, hv, _, rfl⟩ := execSExpand_cases h
    exact .inr (.inr ⟨_, _, _, hw, hv, rfl⟩)
  · obtain ⟨e, n, _, _, rfl⟩ := execSNext_cases h
    rcases s.advance_cases (etype e) n with ⟨_, h'⟩ | ⟨_, _, h'⟩
    · exact .inr (.inr (.inl h'))
    · exact .inr (.inr (.inr h'))

end Sys2Proof.Machine
end

