-- ==== Sys2Proof/Tests/Slice0.lean ====
section
/-! SUPPORT. Tests of one step or one decoding each, their expected results taken from spec/ (95_test_vectors
T1 to T85 and P1, 30_encoding's tables), and for each statement with hypotheses a state and operands that
meet all of them. -/

open Sys2Proof Sys2Proof.Machine Sys2Proof.Claim

namespace Sys2Proof.Tests

/-! ## Small states -/

/-- The next state of a step, if there is one. -/
def nextOf : Result → Option State
  | .next t => some t
  | .fault _ => none
  | .refused _ => none

/-- What the operation port answers to one instruction after reset. -/
def answerOf (i : Instr) : Option (List Answer) := (nextOf (exec i State.reset)).map (·.answers)

/-- The block Z_B00F of 95_test_vectors. -/
def zB00F : List Byte := [0x78, 0x01, 0x01, 0x02, 0x00, 0xFD, 0xFF, 0xB0, 0x0F, 0x01, 0x71, 0x00, 0xC0]

/-- The block Z_FF00 of 95_test_vectors. -/
def zFF00 : List Byte := [0x78, 0x01, 0x01, 0x02, 0x00, 0xFD, 0xFF, 0xFF, 0x00, 0x02, 0x00, 0x01, 0x00]

/-- The header record of T20. -/
def t20 : List Byte :=
  [0x50, 0x6C, 0x61, 0x79, 0x64, 0x61, 0x74, 0x65, 0x20, 0x56, 0x49, 0x44, 0, 0, 0, 0, 2, 0, 0, 0,
    0x00, 0x00, 0xF0, 0x41, 8, 0, 2, 0]

/-- The table of P1, as bytes. -/
def p1Table : List Byte := [0x01, 0, 0, 0, 0x35, 0, 0, 0, 0x68, 0, 0, 0]

/-- The STREAM of P1. -/
def p1 : List Byte := t20 ++ p1Table ++ zB00F ++ zFF00

/-- The header of P1. -/
def p1Header : Header :=
  { magic := Config.magic, reserved1 := 0, numFrames := 2, reserved2 := 0, frameRate := 0x41F00000,
    width := 8, height := 2 }

/-- P1 presented and nothing run. -/
def presented : State :=
  { State.reset with
    stream := Memory.ofBytes 0 p1, streamLen := 66,
    inflateAnswers := [(zB00F, .ok [0xB0, 0x0F]), (zFF00, .ok [0xFF, 0x00])] }

/-- P1 with its header and table held, at PHASE `p`. -/
def session (p : Phase) : State :=
  { (presented.latchHeader p1Header).latchTable [0x01, 0x35, 0x68] 3 with plen := some 2, phase := p }

/-- P1 with the span of frame 0 resolved, fetched and inflated, at PHASE `p`. -/
def inFrame (p : Phase) : State :=
  { session p with
    spanStart := some 40, spanEnd := some 53, cursor := 53, cbuf := some zB00F, pbuf := some [0xB0, 0x0F] }

/-- A state with a due request. -/
def asked (s : State) (code : BitVec 5) (operands : List Byte) : State :=
  { s with inbox := [⟨0, code, operands⟩] }

/-! ## Ill-formed instructions are refused -/

theorem test_header_of_other_magic_is_ill_formed :
    (Instr.header { p1Header with magic := Config.magic.set 0 0x70 }).wellFormed = false := by decide

theorem test_header_of_magic_is_well_formed : (Instr.header p1Header).wellFormed = true := by decide

/-- 43_frame_extraction R177: STREAM_LEN and the STREAM are separate operands. -/
theorem test_run_of_other_length_decodes :
    decode .opsel [0b00011111, 3, 0, 0, 0, 0x50, 0x6C] = .ok (.run [0x50, 0x6C] 3) := by decide

theorem test_decoder_rejects_by_name :
    decode .header (0x70 :: t20.tail) = .error .badMagic ∧
    decode .entry [1, 2, 3] = .error .formatLength ∧
    decode .opsel [0x0C] = .error (.reservedOpsel 0x0C) ∧
    decode .opsel [0x41, 0, 0, 0, 0] = .error .opselByte ∧
    decode .opsel [0x01, 0, 0, 0] = .error .operandLength ∧
    decode .opsel [0x03, 0, 0, 0, 0, 4] = .error .frameTypeTag ∧
    decode .opsel [0x1F, 2, 0, 0] = .error .operandLength := by decide

/-! ## Words written bit by bit from 30_encoding R91, R97 and R105 -/

/-- R97: bits 31:2 the offset, bits 1:0 the type. -/
theorem test_decode_entry_words :
    decodeTableWord 32 0b111111111111111111111111111111_00 = some (.entryEmpty 0x3FFFFFFF) ∧
    decodeTableWord 32 0b000000000000000000000001100100_01 = some (.entryIFrame 100) ∧
    decodeTableWord 32 0b000000000000000000000000000001_10 = some (.entryPFrame 1) ∧
    decodeTableWord 32 0b100000000000000000000000000000_11 = some (.entryIPFrame 0x20000000) := by decide

/-- R91: Height, Width, FrameRate, Reserved2, NumFrames, Reserved1, Magic from the top. -/
theorem test_decode_header_word :
    decodeTableWord 224 0x0002_0008_41F00000_1234_0002_EFBEADDE_444956206574616479616C50 =
      some (.header { p1Header with reserved1 := 0xEFBEADDE, reserved2 := 0x1234 }) := by decide

/-- R105: the function operations, with operands. -/
theorem test_decode_function_words :
    decode .opsel [0b00000001, 0x91, 0x01, 0, 0] = .ok (.eoff 0x191) ∧
    decode .opsel [0b00000010, 0, 0, 0, 0x80] = .ok (.etype 0x80000000) ∧
    decode .opsel [0b00000011, 1, 0, 0, 0x40, 2] = .ok (.epack 0x40000001 .pFrame) ∧
    decode .opsel [0b00000100, 7] = .ok (.hparse [7]) ∧
    decode .opsel [0b00000101, 0, 0, 0xF0, 0x41, 8, 0, 2, 0] = .ok (.hbuild 0x41F00000 8 2 none) ∧
    decode .opsel [0b00000110, 1, 0, 0, 0, 0x68, 0, 0, 0] = .ok (.tvalid [0x01, 0x68]) ∧
    decode .opsel [0b00000111, 0xB0] = .ok (.rexp 0xB0) ∧
    decode .opsel [0b00001000, 8, 0, 2, 0, 0xB0, 0x0F] = .ok (.rasm [0xB0, 0x0F] 8 2) := by decide

/-- R105: the step operations, `0x10 | PHASE`. -/
theorem test_decode_step_words :
    decodeTableWord 8 0b10001 = some .sHdr ∧ decodeTableWord 8 0b10010 = some .sDim ∧
    decodeTableWord 8 0b10011 = some .sTread ∧ decodeTableWord 8 0b10100 = some .sTvalid ∧
    decodeTableWord 8 0b10101 = some .sSpan ∧ decodeTableWord 8 0b10110 = some .sFetch ∧
    decodeTableWord 8 0b10111 = some .sInfl ∧ decodeTableWord 8 0b11000 = some .sExpand ∧
    decodeTableWord 8 0b11001 = some .sNext := by decide

/-- R105: the commands. -/
theorem test_decode_command_words :
    decodeTableWord 8 0b11110 = some .reset ∧
    decode .opsel [0b00011111, 2, 0, 0, 0, 0x50, 0x6C] = .ok (.run [0x50, 0x6C] 2) := by decide

/-! ## The function operations -/

/-- T1, T4, T5: EPACK. -/
theorem test_epack_packs :
    answerOf (.epack 0 .empty) = some [.word 0] ∧ answerOf (.epack 100 .iFrame) = some [.word 0x191] ∧
    answerOf (.epack 0x3FFFFFFF .ipFrame) = some [.word 0xFFFFFFFF] := by decide

/-- T8, T9: EPACK never truncates. -/
theorem test_epack_rejects :
    answerOf (.epack 0x40000000 .iFrame) = some [.error .offsetTooLarge] ∧
    answerOf (.epack 0xFFFFFFFF .ipFrame) = some [.error .offsetTooLarge] := by decide

/-- T12, T14: EOFF's shift is logical. -/
theorem test_eoff_is_logical :
    answerOf (.eoff 0xFFFFFFFF) = some [.word 0x3FFFFFFF] ∧
    answerOf (.eoff 0x80000000) = some [.word 0x20000000] := by decide

/-- T13, T15, T17: ETYPE. -/
theorem test_etype_reads_low_bits :
    answerOf (.etype 0xFFFFFFFF) = some [.frameType .ipFrame] ∧
    answerOf (.etype 0x80000000) = some [.frameType .empty] ∧
    answerOf (.etype 0x00000002) = some [.frameType .pFrame] := by decide

/-- T20: HBUILD. -/
theorem test_hbuild_writes_the_record : answerOf (.hbuild 0x41F00000 8 2 (some 2)) = some [.bytes t20] := by
  decide

/-- T21: `num_frames` omitted is 0, and 240 is F0 00. -/
theorem test_hbuild_default :
    answerOf (.hbuild 0x41F00000 400 240 none) = some [.bytes
      (Config.magic.toList ++ [0, 0, 0, 0, 0, 0, 0, 0, 0x00, 0x00, 0xF0, 0x41, 0x90, 0x01, 0xF0, 0x00])] := by decide

/-- T27: the reserved fields and zero dimensions are accepted. -/
theorem test_hparse_reads_fields :
    answerOf (.hparse (Config.magic.toList ++ [0xDE, 0xAD, 0xBE, 0xEF, 1, 0, 0x34, 0x12, 0, 0, 0, 0, 0, 0, 0, 0])) =
      some [.header { magic := Config.magic, reserved1 := 0xEFBEADDE, numFrames := 1, reserved2 := 0x1234,
                      frameRate := 0, width := 0, height := 0 }] := by decide

/-- T26, and 30_encoding R106 d. -/
theorem test_hparse_rejects :
    answerOf (.hparse (0x70 :: t20.tail)) = some [.error .invalidMagic] ∧
    answerOf (.hparse t20.tail) = some [.refused] := by decide

/-- T32, T33, T34, T36: TVALID. -/
theorem test_tvalid_looks_at_the_last :
    answerOf (.tvalid [0x01, 0x35, 0x68]) = some [.bool true] ∧
    answerOf (.tvalid [0x01, 0x35, 0x69]) = some [.bool false] ∧
    answerOf (.tvalid [0, 0, 2]) = some [.bool false] ∧ answerOf (.tvalid []) = some [.bool false] := by decide

/-- T42, T44: REXP, the most significant bit first. -/
theorem test_rexp_high_bit_first :
    answerOf (.rexp 0x80) = some [.pixels [1, 0, 0, 0, 0, 0, 0, 0]] ∧
    answerOf (.rexp 0xB0) = some [.pixels [1, 0, 1, 1, 0, 0, 0, 0]] := by decide

/-- T48, T49: RASM, row-major. -/
theorem test_rasm_row_major :
    answerOf (.rasm [0xB0, 0x0F] 8 2) = some [.pixels [1, 0, 1, 1, 0, 0, 0, 0, 0, 0, 0, 0, 1, 1, 1, 1]] ∧
    answerOf (.rasm [0xA5] 4 2) = some [.pixels [1, 0, 1, 0, 0, 1, 0, 1]] := by decide

/-- R212: outside its precondition RASM is refused. -/
theorem test_rasm_refused :
    answerOf (.rasm [0xB0] 8 2) = some [.refused] ∧ answerOf (.rasm [] 0 8) = some [.refused] ∧
    answerOf (.rasm [0xB0, 0x0F] 10 2) = some [.refused] := by decide

/-! ## The step operations -/

/-- P1 step 1. -/
theorem test_sHdr_latches :
    (nextOf (exec .sHdr { presented with phase := .sHdr })).map (fun t =>
      (t.hValid, t.hNumFrames, t.hFrameRate, t.cursor, t.phase)) =
      some (true, some 2, some 0x41F00000, 28, .sDim) := by decide

/-- R151: a STREAM of 27 bytes is IoError. -/
theorem test_sHdr_short_stream :
    (nextOf (exec .sHdr { presented with streamLen := 27, phase := .sHdr })).map (fun t =>
      (t.hValid, t.errCode, t.errIndex, t.errOffset, t.phase)) =
      some (false, .ioError, none, 0, .error) := by decide

/-- T69. -/
theorem test_sDim_plen :
    (nextOf (exec .sDim { session .sDim with plen := none })).map (fun t => (t.plen, t.phase)) =
      some (some 2, .sTread) := by decide

/-- T70: PLEN keeps no value. -/
theorem test_sDim_raises :
    (nextOf (exec .sDim { session .sDim with plen := none, hWidth := some 10 })).map (fun t =>
      (t.plen, t.errCode, t.errIndex, t.errOffset, t.phase)) =
      some (none, .invalidDimensions, none, 24, .error) := by decide

/-- P1 step 3. -/
theorem test_sTread_latches :
    (nextOf (exec .sTread { presented.latchHeader p1Header with phase := .sTread })).map (fun t =>
      (t.table, t.tLen, t.dataBase, t.cursor, t.phase)) =
      some ([0x01, 0x35, 0x68], some 3, some 40, 40, .sTvalid) := by decide

/-- R162: the STREAM ends inside entry 1. -/
theorem test_sTread_truncated_table :
    (nextOf (exec .sTread { presented.latchHeader p1Header with phase := .sTread, streamLen := 35 })).map
      (fun t => (t.table, t.tValid, t.errCode, t.errIndex, t.errOffset)) =
      some ([], false, .ioError, none, 32) := by decide

/-- P1 step 4. -/
theorem test_sTvalid_passes :
    (nextOf (exec .sTvalid (session .sTvalid))).map (·.phase) = some .sSpan := by decide

/-- R164: the address of the last entry. -/
theorem test_sTvalid_raises :
    (nextOf (exec .sTvalid { session .sTvalid with table := [0x01, 0x35, 0x69] })).map (fun t =>
      (t.errCode, t.errIndex, t.errOffset, t.phase)) = some (.malformedTable, none, 36, .error) := by decide

/-- T61: a span may end exactly at STREAM_LEN. -/
theorem test_sSpan_ends_at_stream_len :
    (nextOf (exec .sSpan { session .sSpan with idx := 1 })).map (fun t => (t.spanStart, t.spanEnd, t.phase)) =
      some (some 53, some 66, .sFetch) := by decide

/-- T65: no 32-bit wrap. -/
theorem test_sSpan_does_not_wrap :
    (nextOf (exec .sSpan { session .sSpan with table := [0xFFFFFFFD, 0xFFFFFFFD, 0xFFFFFFFC] })).map
      (fun t => (t.spanStart, t.errCode, t.errIndex, t.errOffset)) =
      some (none, .invalidRange, some 0, 1073741863) := by decide

/-- P1 step 6. -/
theorem test_sFetch_reads_the_span :
    (nextOf (exec .sFetch { inFrame .sFetch with cbuf := none, cursor := 40 })).map (fun t =>
      (t.cbuf, t.cursor, t.phase)) = some (some zB00F, 53, .sInfl) := by decide

/-- R182: IoFail is IoError(IDX, SPAN_START). -/
theorem test_sFetch_raises :
    (nextOf (exec .sFetch { inFrame .sFetch with ioAnswers := [((40, 13), .fail)] })).map (fun t =>
      (t.errCode, t.errIndex, t.errOffset, t.phase)) = some (.ioError, some 0, 40, .error) := by decide

/-- P1 step 7. -/
theorem test_sInfl_holds_the_payload :
    (nextOf (exec .sInfl { inFrame .sInfl with pbuf := none })).map (fun t => (t.pbuf, t.phase)) =
      some (some [0xB0, 0x0F], .sExpand) := by decide

/-- T71: a payload of the wrong length. -/
theorem test_sInfl_raises_on_length :
    (nextOf (exec .sInfl { inFrame .sInfl with
        inflateAnswers := [(zB00F, .ok [0xA5])], idx := 1, spanStart := some 53, pbuf := none })).map (fun t =>
      (t.pbuf, t.errCode, t.errIndex, t.errOffset)) = some (none, .corruptFrame, some 1, 53) := by decide

/-- P1 step 8. -/
theorem test_sExpand_emits :
    (nextOf (exec .sExpand (inFrame .sExpand))).map (fun t => (t.out, t.framesOut, t.phase)) =
      some ([⟨1, 8, 2, [1, 0, 1, 1, 0, 0, 0, 0, 0, 0, 0, 0, 1, 1, 1, 1]⟩], 1, .sNext) := by decide

/-- T66. -/
theorem test_sNext_advances :
    (nextOf (exec .sNext (inFrame .sNext))).map (fun t => (t.idx, t.phase)) = some (1, .sSpan) := by decide

/-- T68: an early terminator. -/
theorem test_sNext_early_terminator :
    (nextOf (exec .sNext { inFrame .sNext with table := [0x01, 0x34, 0x34] })).map (fun t =>
      (t.idx, t.phase, t.errCode)) = some (0, .done, .none) := by decide

/-! ## The container's words -/

/-- 30_encoding R98: Empty stops the loop, at an early index too. -/
theorem test_entry_words_in_sNext :
    (nextOf (exec (.entryEmpty 13) (inFrame .sNext))).map (·.phase) = some .done ∧
    (nextOf (exec (.entryIFrame 13) (inFrame .sNext))).map (·.phase) = some .sSpan ∧
    (nextOf (exec (.entryPFrame 13) (inFrame .sNext))).map (·.phase) = some .sSpan ∧
    (nextOf (exec (.entryIPFrame 13) (inFrame .sNext))).map (·.phase) = some .sSpan := by decide

/-- 30_encoding R98: only Empty is a terminator. -/
theorem test_entry_words_in_sTvalid :
    (nextOf (exec (.entryEmpty 26) (session .sTvalid))).map (·.errCode) = some .none ∧
    (nextOf (exec (.entryIFrame 26) (session .sTvalid))).map (·.errCode) = some .malformedTable ∧
    (nextOf (exec (.entryPFrame 26) (session .sTvalid))).map (·.errCode) = some .malformedTable ∧
    (nextOf (exec (.entryIPFrame 26) (session .sTvalid))).map (·.errCode) = some .malformedTable := by decide

/-- 41_header_codec R150. -/
theorem test_header_word_in_sHdr :
    (nextOf (exec (.header p1Header) { presented with phase := .sHdr })).map (fun t => (t.hWidth, t.phase)) =
      some (some 8, .sDim) := by decide

/-! ## The commands and the port -/

/-- T84. -/
theorem test_reset_in_sInfl :
    (nextOf (exec .reset (inFrame .sInfl))).map (fun t =>
      (t.phase, t.hWidth, t.table, t.cbuf)) = some (.idle, none, [], none) := by decide

/-- P1 step 0. -/
theorem test_run_starts :
    (nextOf (exec (.run p1 66) State.reset)).map (fun t => (t.phase, t.streamLen, t.stream.read 53)) =
      some (.sHdr, 66, 0x78) := by decide

/-- 20_memory R64: one byte short, the last byte cannot be read; one byte long, it can. -/
theorem test_run_of_other_length_starts :
    (nextOf (exec (.run p1 65) State.reset)).map (fun t => (t.phase, t.memRead 65 1)) =
      some (.sHdr, .fail) ∧
    (nextOf (exec (.run p1 67) State.reset)).map (fun t => (t.phase, t.memRead 40 1)) =
      some (.sHdr, .bytes [0x78]) := by decide

/-- T83. -/
theorem test_run_refused_in_done :
    (nextOf (exec (.run p1 66) (session .done))).map (fun t => (t.phase, t.answers)) =
      some (.done, [.refused]) := by decide

/-- T80, T82: reserved codes and step codes are refused. -/
theorem test_port_refuses :
    (nextOf (step (asked (session .sSpan) 0x00 []))).map (fun t => (t.phase, t.answers)) =
      some (.sSpan, [.refused]) ∧
    (nextOf (step (asked (session .sSpan) 0x15 []))).map (fun t => (t.phase, t.answers)) =
      some (.sSpan, [.refused]) := by decide

/-- T85: a function operation in a running session. -/
theorem test_port_answers_while_busy :
    (nextOf (step (asked (inFrame .sFetch) 0x01 [0x91, 0x01, 0, 0]))).map (fun t => (t.phase, t.answers)) =
      some (.sFetch, [.word 100]) := by decide

/-! ## Placing an instruction -/

/-- `withFetchWord` places what the next step runs: an ENTRY at S_NEXT, and EOFF of zero. -/
theorem test_placed_words_run :
    (nextOf (step (State.reset.withFetchWord 32 0x00000000))).map (·.phase) = some .done ∧
    (nextOf (step (State.reset.withFetchWord 32 0x00000001))).map (·.phase) = some .sSpan ∧
    (nextOf (step (State.reset.withFetchWord 8 0x01))).map (·.answers) = some [.word 0] ∧
    (nextOf (step (State.reset.withFetchWord 8 0x18))).map (·.framesOut) = some 1 := by decide

/-! ## Witnesses: for each statement with hypotheses, a state and operands that meet them together -/

/-- EpackPacksOrRejects: the last offset that packs, and the first that does not. -/
theorem witness_epack :
    (0x3FFFFFFF : Word).toNat < 2 ^ 30 ∧ 2 ^ 30 ≤ (0x40000000 : Word).toNat ∧
    2 ^ 30 ≤ (0xFFFFFFFF : Word).toNat := by decide

/-- PackAndUnpackAreInverse: two equal words unpack alike. -/
theorem witness_unpack : unpack 0x191 = unpack 0x191 ∧ unpack 0x191 ≠ unpack 0x190 := by decide

/-- HparseChecksMagicThenFields: both clauses. -/
theorem witness_hparse :
    t20.length = 28 ∧ t20.take 12 = Config.magic.toList ∧
    (0x70 :: t20.tail).length = 28 ∧ (0x70 :: t20.tail).take 12 ≠ Config.magic.toList := by decide

/-- HeaderRoundTrips: a record that parses. -/
theorem witness_header_round_trip : t20.length = 28 ∧ hparse t20 = .ok p1Header := by decide

/-- RasmAnswersRasterOrRefuses: inside, one byte short, a zero dimension, a product not a multiple of 8. -/
theorem witness_rasm :
    (DimsGood 8 2 ∧ [(0xB0 : Byte), 0x0F].length = (8 : Half).toNat * (2 : Half).toNat / 8) ∧
    ¬ (DimsGood 8 2 ∧ [(0xB0 : Byte)].length = (8 : Half).toNat * (2 : Half).toNat / 8) ∧
    ¬ (DimsGood 0 8 ∧ ([] : List Byte).length = (0 : Half).toNat * (8 : Half).toNat / 8) ∧
    ¬ (DimsGood 10 2 ∧ [(0xB0 : Byte), 0x0F].length = (10 : Half).toNat * (2 : Half).toNat / 8) := by
  unfold DimsGood
  decide

/-- RasterLaws: two payloads of one geometry, and a byte of one. -/
theorem witness_raster_laws :
    DimsGood 4 2 ∧ [(0xA5 : Byte)].length = (4 : Half).toNat * (2 : Half).toNat / 8 ∧
    [(0x3C : Byte)].length = [(0xA5 : Byte)].length ∧ [(0xA5 : Byte)][0]? = some 0xA5 ∧
    rasm [0xA5] 4 2 = rasm [0xA5] 4 2 := by
  unfold DimsGood
  decide

/-- FunctionAnswersAreStateless: the one clause with a premise. -/
theorem witness_hparse_length : t20.tail.length ≠ 28 := by decide

/-- SHdrLatchesOrRaises: unreadable by one byte, unreadable by the oracle, a wrong magic, P1's header. -/
theorem witness_sHdr :
    Unreadable { presented with streamLen := 27 } 0 28 ∧
    Unreadable { presented with ioAnswers := [((0, 28), .fail)] } 0 28 ∧
    (Readable { presented with stream := [] } 0 28 ∧
      span { presented with stream := [] } 0 12 ≠ Config.magic.toList) ∧
    (Readable presented 0 28 ∧ span presented 0 12 = Config.magic.toList) ∧
    Readable { presented with streamLen := 28 } 0 28 := by
  unfold Unreadable Readable
  decide

/-- SDimComputesPlenOrRaises: 8 by 2, the largest good geometry, and three bad ones. -/
theorem witness_sDim :
    (session .sDim).hWidth = some 8 ∧ (session .sDim).hHeight = some 2 ∧ DimsGood 8 2 ∧
    DimsGood 65535 65528 ∧ ¬ DimsGood 10 2 ∧ ¬ DimsGood 0 8 ∧ ¬ DimsGood 8 0 := by
  unfold DimsGood
  decide

/-- STreadLatchesTableOrRaises: all of P1's entries; and entry 1 cut off after 7 bytes of the table. -/
theorem witness_sTread :
    (session .sTread).hNumFrames = some 2 ∧
    (∀ j, j ≤ (2 : Half).toNat → Readable (session .sTread) (28 + 4 * j) 4) ∧
    (1 ≤ (2 : Half).toNat ∧
      (∀ k, k < 1 → Readable { session .sTread with streamLen := 35 } (28 + 4 * k) 4) ∧
      Unreadable { session .sTread with streamLen := 35 } (28 + 4 * 1) 4) := by
  unfold Unreadable Readable
  decide

/-- STvalidChecksLastEntry: P1's table, a table of one entry, a last entry that is not Empty. -/
theorem witness_sTvalid :
    ((session .sTvalid).tLen = some 3 ∧ 1 ≤ (3 : Index).toNat ∧
      (3 : Index).toNat ≤ (session .sTvalid).table.length ∧
      (session .sTvalid).table[(3 : Index).toNat - 1]? = some 0x68 ∧ (0x68 : Word).toNat % 4 = 0 ∧
      (3 : Index).toNat ≠ 1) ∧
    (let s := { session .sTvalid with table := [0x00], tLen := some 1 };
      s.tLen = some 1 ∧ 1 ≤ (1 : Index).toNat ∧ (1 : Index).toNat ≤ s.table.length ∧
      s.table[(1 : Index).toNat - 1]? = some 0 ∧ (0 : Word).toNat % 4 = 0 ∧ (1 : Index).toNat = 1) ∧
    (let s := { session .sTvalid with table := [0x01, 0x35, 0x69] };
      s.tLen = some 3 ∧ 1 ≤ (3 : Index).toNat ∧ (3 : Index).toNat ≤ s.table.length ∧
      s.table[(3 : Index).toNat - 1]? = some 0x69 ∧ (0x69 : Word).toNat % 4 ≠ 0) := by decide

/-- SSpanResolvesOrRaises: a span that ends at STREAM_LEN, an empty one, one past STREAM_LEN by a byte,
one that runs backwards. -/
theorem witness_sSpan :
    ((session .sSpan).dataBase = some 40 ∧ (session .sSpan).table[(session .sSpan).idx.toNat]? = some 0x01 ∧
      (session .sSpan).table[(session .sSpan).idx.toNat + 1]? = some 0x35) ∧
    ((0x35 : Word).toNat / 4 ≤ (0x68 : Word).toNat / 4 ∧
      (40 : Word).toNat + (0x68 : Word).toNat / 4 ≤ (session .sSpan).streamLen.toNat) ∧
    (0x01 : Word).toNat / 4 ≤ (0x01 : Word).toNat / 4 ∧
    (session .sSpan).streamLen.toNat < (40 : Word).toNat + (0x6C : Word).toNat / 4 ∧
    (0x14 : Word).toNat / 4 < (0x35 : Word).toNat / 4 := by decide

/-- SFetchReadsExactSpan: frame 0 of P1, an empty span at the end of the STREAM, a read that fails. -/
theorem witness_sFetch :
    ((inFrame .sFetch).spanStart = some 40 ∧ (inFrame .sFetch).spanEnd = some 53 ∧
      (40 : Word).toNat ≤ (53 : Word).toNat ∧
      Readable (inFrame .sFetch) (40 : Word).toNat ((53 : Word).toNat - (40 : Word).toNat)) ∧
    Readable (inFrame .sFetch) 66 0 ∧
    Unreadable { inFrame .sFetch with ioAnswers := [((40, 13), .fail)] } 40 13 := by
  unfold Unreadable Readable
  decide

/-- SInflHoldsPayloadOrRaises: the right length, a wrong one, and a failure. -/
theorem witness_sInfl :
    ((inFrame .sInfl).cbuf = some zB00F ∧ (inFrame .sInfl).plen = some 2 ∧
      (inFrame .sInfl).spanStart = some 40 ∧
      (inFrame .sInfl).askInflate zB00F = .ok [0xB0, 0x0F] ∧
      [(0xB0 : Byte), 0x0F].length = (2 : Word).toNat) ∧
    (State.askInflate { inFrame .sInfl with inflateAnswers := [(zB00F, .ok [0xA5])] } zB00F = .ok [0xA5] ∧
      [(0xA5 : Byte)].length ≠ (2 : Word).toNat) ∧
    State.askInflate { inFrame .sInfl with inflateAnswers := [(zB00F, .fail)] } zB00F = .fail := by decide

/-- SExpandEmitsRaster: frame 0 of P1. -/
theorem witness_sExpand :
    (inFrame .sExpand).pbuf = some [0xB0, 0x0F] ∧ (inFrame .sExpand).hWidth = some 8 ∧
    (inFrame .sExpand).hHeight = some 2 ∧ DimsGood 8 2 ∧
    [(0xB0 : Byte), 0x0F].length = (8 : Half).toNat * (2 : Half).toNat / 8 := by
  unfold DimsGood
  decide

/-- SNextStopsOrAdvances: an early terminator, the last entry, an entry to go on with. -/
theorem witness_sNext :
    (let s := { inFrame .sNext with table := [0x01, 0x34, 0x34] };
      s.table[s.idx.toNat + 1]? = some 0x34 ∧ s.tLen = some 3 ∧ (0x34 : Word).toNat % 4 = 0 ∧
      s.idx.toNat + 2 ≠ (3 : Index).toNat) ∧
    (let s := { inFrame .sNext with idx := 1 };
      s.table[s.idx.toNat + 1]? = some 0x68 ∧ s.tLen = some 3 ∧ s.idx.toNat + 2 = (3 : Index).toNat) ∧
    (let s := inFrame .sNext;
      s.table[s.idx.toNat + 1]? = some 0x35 ∧ s.tLen = some 3 ∧ (0x35 : Word).toNat % 4 ≠ 0 ∧
      s.idx.toNat + 2 ≠ (3 : Index).toNat) := by decide

/-- StartBeginsSessionInIdleOnly and RunTakesAnyStreamLen: P1 with its own length, one less, one more. -/
theorem witness_run :
    (State.reset.phase = .idle ∧ (session .done).phase ≠ .idle) ∧
    (65 < (66 : Word).toNat ∧ p1[65]?.isSome = true) ∧
    ((65 : Word).toNat < 65 + 1 ∧ 64 + 1 ≤ (65 : Word).toNat ∧ 64 + 1 ≤ p1.length) ∧
    State.reset.ioAnswers.lookup (64, 1) = none ∧
    (p1.length ≤ 66 ∧ 66 < (67 : Word).toNat) := by decide

/-- PortFollowsOpselTable: a due request of each class, at the ends of each range. -/
theorem witness_port :
    ((asked presented 0x00 []).dueRequest = some ⟨0, 0x00, []⟩ ∧
      (asked presented 0x09 []).dueRequest = some ⟨0, 0x09, []⟩ ∧ 0x09 ≤ (0x09 : BitVec 5).toNat ∧
      (0x1D : BitVec 5).toNat ≤ 0x1D) ∧
    (1 ≤ (0x01 : BitVec 5).toNat ∧ (0x08 : BitVec 5).toNat ≤ 8) ∧
    ((0x1E : BitVec 5).toNat = 0x1E ∧ (asked (session .error) 0x1E []).dueRequest = some ⟨0, 0x1E, []⟩) ∧
    ((0x1F : BitVec 5).toNat = 0x1F ∧ (session .done).phase ≠ .idle) ∧
    (let r : Request := ⟨0, 0x1F, [2, 0, 0, 0, 0x50, 0x6C]⟩;
      (asked presented r.opsel r.operands).dueRequest = some r ∧
      (asked presented r.opsel r.operands).phase = .idle ∧ 4 ≤ r.operands.length ∧
      1 < (u32 r.operands 0).toNat ∧ r.operands[1 + 4]? = some 0x6C) := by decide

/-- EntryWordsSteerSNext, EntryWordsDecideSTvalid, EntryWordsEndSpan, EntryWordsElsewhereDoNothing. -/
theorem witness_entry_words :
    ((inFrame .sNext).phase = .sNext ∧ (inFrame .sNext).tLen = some 3 ∧
      (inFrame .sNext).idx.toNat + 2 ≠ (3 : Index).toNat ∧
      State.idx { inFrame .sNext with idx := 1 } = 1 ∧ (1 : Index).toNat + 2 = (3 : Index).toNat) ∧
    ((session .sTvalid).phase = .sTvalid ∧ (session .sTvalid).tLen = some 3 ∧ 1 ≤ (3 : Index).toNat) ∧
    ((session .sSpan).phase = .sSpan ∧ (session .sSpan).dataBase = some 40 ∧
      (session .sSpan).table[(session .sSpan).idx.toNat]? = some 0x01 ∧
      (0x01 : Word).toNat / 4 ≤ (26 : BitVec 30).toNat ∧
      (40 : Word).toNat + (26 : BitVec 30).toNat ≤ (session .sSpan).streamLen.toNat ∧
      (session .sSpan).streamLen.toNat < (40 : Word).toNat + (27 : BitVec 30).toNat) ∧
    ((session .sDim).phase ≠ .sTvalid ∧ (session .sDim).phase ≠ .sSpan ∧ (session .sDim).phase ≠ .sNext) := by
  decide

/-- StepRunsConsultedEntry: in each of the three PHASEs. -/
theorem witness_consulted_entry :
    ((inFrame .sNext).dueRequest = none ∧ (inFrame .sNext).heldBack = false ∧
      (inFrame .sNext).tLen = some 3 ∧ (3 : Index).toNat = (inFrame .sNext).table.length ∧
      decode .entry (bytes4 0x35) = .ok (.entryIFrame 13) ∧
      (inFrame .sNext).table[(inFrame .sNext).idx.toNat + 1]? = some 0x35) ∧
    ((session .sSpan).dueRequest = none ∧ (session .sSpan).heldBack = false ∧
      (session .sSpan).table[(session .sSpan).idx.toNat + 1]? = some 0x35) ∧
    ((session .sTvalid).dueRequest = none ∧ (session .sTvalid).heldBack = false ∧
      (session .sTvalid).table.getLast? = some 0x68 ∧
      decode .entry (bytes4 0x68) = .ok (.entryEmpty 26)) := by decide

/-- HeaderWordIsLatchedInSHdr and StepRunsHeaderRead. -/
theorem witness_header_word :
    (session .sHdr).phase = .sHdr ∧ p1Header.magic = Config.magic ∧
    Header.magic { p1Header with magic := Config.magic.set 11 0x58 } ≠ Config.magic ∧ (session .sDim).phase ≠ .sHdr ∧
    (session .sHdr).dueRequest = none ∧ Readable (session .sHdr) 0 28 ∧
    decode .header (span (session .sHdr) 0 28) = .ok (.header p1Header) := by
  unfold Readable
  decide

/-- RaisingStepHasNoPartialEffect and PhaseAdvancesByTable: S_TVALID raises; a step of S_DIM. -/
theorem witness_raising_step :
    Instr.sTvalid ∈ stepOps ∧
    (let s := { session .sTvalid with table := [0x01, 0x35, 0x69] };
      s.phase ≠ .error ∧ (nextOf (exec .sTvalid s)).map (·.phase) = some .error) ∧
    ((session .sDim).dueRequest = none ∧ (nextOf (step (session .sDim))).isSome = true) := by decide

/-- ErrorIsLeftByResetOnly: a RESET, another request, and no request, in ERROR. -/
theorem witness_error :
    (session .error).phase = .error ∧ (nextOf (step (asked (session .error) 0x1E []))).isSome = true ∧
    (nextOf (step (asked (session .error) 0x1F [0, 0, 0, 0]))).isSome = true ∧
    (nextOf (step (session .error))).isSome = true := by decide

/-- OutIsAppendOnly and TableIsWrittenBySTreadOnly: S_EXPAND with no request due. -/
theorem witness_out :
    (inFrame .sExpand).dueRequest = none ∧ (inFrame .sExpand).phase ≠ .sTread ∧
    (nextOf (step (inFrame .sExpand))).map (·.out.length) = some 1 := by decide

/-- StreamIsReadOnly: an instruction that is no RUN and completes. -/
theorem witness_read_only :
    (∀ b n, Instr.sFetch ≠ .run b n) ∧ (nextOf (exec .sFetch (inFrame .sFetch))).isSome = true :=
  ⟨(by intro _ _ h; cases h), by decide⟩

/-- MemReadAnswersBytesOrFails: the last byte of the STREAM, one past it, a failed read, an empty one. -/
theorem witness_memRead :
    Readable presented 65 1 ∧ Unreadable presented 65 2 ∧ Readable presented 66 0 ∧
    Unreadable { presented with ioAnswers := [((0, 1), .fail)] } 0 1 := by
  unfold Unreadable Readable
  decide

/-- StepReadsItsAddressesOnly: S_HDR, and a stream that differs at address 30. -/
theorem witness_reads :
    (session .sHdr).dueRequest = none ∧
    (∀ a, Reads (session .sHdr) a → ((session .sHdr).stream.write 30 7).read a = (session .sHdr).stream.read a) ∧
    ((session .sHdr).stream.write 30 7).read 30 ≠ (session .sHdr).stream.read 30 ∧
    (nextOf (step (session .sHdr))).isSome = true := by
  refine ⟨by decide, fun a ha => ?_, by decide, by decide⟩
  have h : a < 28 := ha
  rw [Memory.read_write _ 0 30 a 7 (by decide), if_neg (by omega)]

/-- NonEmptyTypesDoNotSteer: P1's table, with two other non-Empty types. -/
theorem witness_types :
    SameButTypes (session .sSpan).table [0x02, 0x37, 0x68] ∧
    (nextOf (step (session .sSpan))).isSome = true := by
  refine ⟨?_, by decide⟩
  refine .cons ?_ (.cons ?_ (.cons ?_ .nil)) <;> decide

/-- RefusedEmptyFirstEntryIsStuck: P1 with an Empty-typed first entry. -/
theorem witness_refused_first :
    let s := { session .sSpan with table := [0x00, 0x35, 0x68], emptyFirst := .refuse }
    s.dueRequest = none ∧ s.emptyFirst = .refuse ∧ s.phase = .sSpan ∧ s.table = 0x00 :: [0x35, 0x68] ∧
      (0x00 : Word).toNat % 4 = 0 := by decide

/-- UnansweredRequestLeavesSessionBusy: each of the four steps that ask. -/
theorem witness_unanswered :
    (let s := { session .sHdr with ioAnswers := [((0, 28), .never)] };
      28 ≤ s.streamLen.toNat ∧ s.ioAnswers.lookup (0, 28) = some .never) ∧
    (let s := { session .sTread with ioAnswers := [((32, 4), .never)] };
      s.hNumFrames = some 2 ∧ 1 ≤ (2 : Half).toNat ∧
      (∀ k, k < 1 → 28 + 4 * k + 4 ≤ s.streamLen.toNat ∧ s.ioAnswers.lookup (28 + 4 * k, 4) = none) ∧
      28 + 4 * 1 + 4 ≤ s.streamLen.toNat ∧ s.ioAnswers.lookup (28 + 4 * 1, 4) = some .never) ∧
    (let s := { inFrame .sFetch with ioAnswers := [((40, 13), .never)] };
      s.spanStart = some 40 ∧ s.spanEnd = some 53 ∧ (40 : Word).toNat ≤ (53 : Word).toNat ∧
      (53 : Word).toNat ≤ s.streamLen.toNat ∧
      s.ioAnswers.lookup ((40 : Word).toNat, (53 : Word).toNat - (40 : Word).toNat) = some .never) ∧
    (let s := { inFrame .sInfl with inflateAnswers := [(zB00F, .never)] };
      s.cbuf = some zB00F ∧ s.inflateAnswers.lookup zB00F = some .never) := by decide

/-- StopsExactlyWhereNoValue: after reset no header is held (93 U8, H_* with H_VALID = 0), in a session it is. -/
theorem witness_no_value :
    exec .sDim State.reset = .fault (.noValue .hWidth) ∧ State.reset.hostRead .hWidth = none ∧
    (session .sDim).hostRead .hWidth = some (.number 8) := ⟨rfl, rfl, rfl⟩

/-- OtherStopsAreOutsideTheDomain: a reversed span, and a payload of the wrong length. -/
theorem witness_outside_domain :
    exec .sFetch { inFrame .sFetch with spanStart := some 53, spanEnd := some 40 } = .fault .spanReversed ∧
    exec .sExpand { inFrame .sExpand with pbuf := some [0xB0] } = .fault .rasmPrecondition := ⟨rfl, rfl⟩

/-- EveryWordIsAnEntry: a word of each residue. -/
theorem witness_entry_residues :
    (0x68 : Word).toNat % 4 = 0 ∧ (0x35 : Word).toNat % 4 = 1 ∧ (0x06 : Word).toNat % 4 = 2 ∧
    (0xFFFFFFFF : Word).toNat % 4 = 3 := by decide

/-- HeaderMatchesOnMagic: a 224-bit value that matches and one that does not. -/
theorem witness_header_word_value :
    0x0002_0008_41F00000_0000_0002_00000000_444956206574616479616C50 < 2 ^ 224 ∧
    0x0002_0008_41F00000_0000_0002_00000000_584956206574616479616C50 < 2 ^ 224 := by decide

/-- DecodeOfEncode and EncodeOfDecode: a well-formed RUN, and bytes that decode. -/
theorem witness_encode :
    (Instr.run [1, 2] 3).wellFormed = true ∧
    decode .opsel [0x03, 100, 0, 0, 0, 1] = .ok (.epack 100 .iFrame) := by decide

/-- StepRunsPhaseInstruction: a PHASE with a step operation, and one without. -/
theorem witness_phase_instruction :
    ((session .sDim).dueRequest = none ∧ (session .sDim).heldBack = false ∧
      decode .opsel [0x10 ||| (session .sDim).phase.code.setWidth 8] = .ok .sDim) ∧
    ((session .done).dueRequest = none ∧ (session .done).heldBack = false ∧
      decode .opsel [0x10 ||| (session .done).phase.code.setWidth 8] = .error (.reservedOpsel 0x1A)) := by
  decide

/-- StepRunsDueRequest: a function operation, a step code, a reserved code. -/
theorem witness_due_request :
    ((asked presented 0x01 [1, 0, 0, 0]).inbox = ⟨0, 0x01, [1, 0, 0, 0]⟩ :: [] ∧
      decode .opsel ((0x01 : BitVec 5).setWidth 8 :: [1, 0, 0, 0]) = .ok (.eoff 1) ∧
      Instr.eoff 1 ∉ stepOps) ∧
    (decode .opsel [(0x15 : BitVec 5).setWidth 8] = .ok .sSpan ∧ Instr.sSpan ∈ stepOps) ∧
    decode .opsel [(0x0C : BitVec 5).setWidth 8] = .error (.reservedOpsel 0x0C) := by decide

/-! The states of a session meet the invariant: P1 just started, and P1 in S_EXPAND of frame 0. -/

/-- P1 just started. -/
def started : State := presented.start p1 66

theorem started_inv : started.Inv := by
  constructor
  all_goals try (intro h; cases h; done)
  · exact fun _ => ⟨rfl, rfl, rfl, rfl, rfl, rfl, rfl⟩
  · exact fun _ => ⟨rfl, rfl, rfl⟩
  · exact fun _ => rfl
  · exact ⟨rfl, fun j r h => by simp [started, presented, State.reset] at h⟩
  · exact fun _ => ⟨rfl, rfl⟩
  · decide
  · exact fun _ => ⟨rfl, rfl⟩
  · exact ⟨by decide, by decide⟩

theorem inFrame_inv : (inFrame .sExpand).Inv := by
  constructor
  all_goals try (intro h; cases h; done)
  · exact fun _ => rfl
  · exact fun _ => ⟨p1Header, rfl, rfl, rfl, rfl, rfl, rfl, rfl, rfl⟩
  · exact fun _ => ⟨8, 2, rfl, rfl, by decide, by decide⟩
  · exact fun _ => rfl
  · exact fun _ => ⟨2, rfl, rfl, rfl, rfl⟩
  · exact fun _ => by decide
  · exact fun _ => by decide
  · exact fun _ => ⟨40, 0x01, 0x35, 40, 53, by decide⟩
  · exact fun _ => ⟨zB00F, 40, 53, by decide⟩
  · exact fun _ => ⟨[0xB0, 0x0F], 2, by decide⟩
  · exact ⟨rfl, fun j r h => by simp [inFrame, session, presented, State.latchTable, State.latchHeader,
      State.reset] at h⟩
  · exact fun _ _ => rfl
  · decide
  · exact fun _ => ⟨rfl, rfl⟩
  · exact ⟨by decide, by decide⟩

/-- EveryStepKeepsInv and NoReachableStepStops. -/
theorem witness_invariant :
    (inFrame .sExpand).Inv ∧ (nextOf (step (inFrame .sExpand))).isSome = true :=
  ⟨inFrame_inv, by decide⟩

/-- RunEndsInDoneOrError. -/
theorem witness_run_ends :
    started.Inv ∧ started.phase = .sHdr ∧ started.inbox = [] ∧ started.Answering ∧
    started.emptyFirst = .process :=
  ⟨started_inv, rfl, rfl, ⟨by decide, by decide⟩, rfl⟩

/-- HeaderReadableIffValid: a state with a header and one without. -/
theorem witness_header_readable :
    ((inFrame .sExpand).Inv ∧ (inFrame .sExpand).hostRead .hValid = some (.number 1)) ∧
    started.Inv ∧ started.hostRead .hValid = some (.number 0) :=
  ⟨⟨inFrame_inv, by decide⟩, started_inv, by decide⟩

end Sys2Proof.Tests
end

section
/-! STATUS read off the number of PHASE (10_state R39). -/

namespace Sys2Proof.Machine

/-- IDLE is the STATUS of the PHASE numbered 0x0 alone (10_state R39). -/
theorem Phase.status_eq_idle_iff (p : Phase) : p.status = .idle ↔ p.code.toNat = 0 := by
  cases p <;> decide

/-- BUSY covers the nine sequencer PHASEs, 0x1 to 0x9 (10_state R39). -/
theorem Phase.status_eq_busy_iff (p : Phase) :
    p.status = .busy ↔ 1 ≤ p.code.toNat ∧ p.code.toNat ≤ 9 := by
  cases p <;> decide

/-- DONE is the STATUS of the PHASE numbered 0xA alone (10_state R39). -/
theorem Phase.status_eq_done_iff (p : Phase) : p.status = .done ↔ p.code.toNat = 0xA := by
  cases p <;> decide

/-- ERROR is the STATUS of the PHASE numbered 0xB alone (10_state R39). -/
theorem Phase.status_eq_error_iff (p : Phase) : p.status = .error ↔ p.code.toNat = 0xB := by
  cases p <;> decide

/-- Settles O35: a state's STATUS is that of its PHASE, and each STATUS has its range of numbers. -/
theorem statusFollowsPhase : Obligations.StatusFollowsPhase := fun s =>
  ⟨s.phase.status_eq_idle_iff, s.phase.status_eq_busy_iff, s.phase.status_eq_done_iff,
    s.phase.status_eq_error_iff⟩

end Sys2Proof.Machine
end

section
/-! `MemRead` in the vocabulary of the claims (20_memory R64): what a readable and an unreadable span give. -/

namespace Sys2Proof.Claim

open Sys2Proof.Machine

/-- The bytes of a span, read off address by address, are the claims' `span`. -/
theorem readBytes_eq_span (s : State) (a n : Nat) : s.stream.readBytes a n = span s a n :=
  s.stream.readBytes_eq_map a n

/-- A failed `MemRead` returns no bytes (20_memory R64). -/
theorem Unreadable.memRead_eq_fail {s : State} {a n : Nat} (h : Unreadable s a n) :
    s.memRead a n = .fail :=
  State.memRead_eq_fail.2 h

/-- A `MemRead` that is answered and does not fail returns the whole span (20_memory R64). -/
theorem Readable.memRead_eq_bytes {s : State} {a n : Nat} (h : Readable s a n) :
    s.memRead a n = .bytes (span s a n) := by
  obtain ⟨inside, unlisted⟩ := h
  exact State.memRead_eq_bytes.2 ⟨inside, unlisted, (readBytes_eq_span s a n).symm⟩

/-- Settles O40: an unreadable span fails and a readable one is answered in full. -/
theorem memReadAnswersBytesOrFails : Obligations.MemReadAnswersBytesOrFails :=
  fun _ _ _ => ⟨Unreadable.memRead_eq_fail, Readable.memRead_eq_bytes⟩

end Sys2Proof.Claim
end

section
/-! The bytes of a HEADER as one little-endian number, and the MAGIC as its low 96 bits (30_encoding R92). -/

namespace Sys2Proof

/-- Byte `k` of the little-endian bytes of `v` is `v` shifted down by `k` bytes. -/
theorem leBytes_eq_map (n v : Nat) :
    leBytes n v = (List.range n).map fun k => BitVec.ofNat 8 (v / 2 ^ (8 * k)) := by
  induction n generalizing v with
  | zero => rfl
  | succ n ih =>
    have shift (k : Nat) : v / 256 / 2 ^ (8 * k) = v / 2 ^ (8 * (k + 1)) := by
      rw [Nat.div_div_eq_div_mul, Nat.mul_succ, Nat.add_comm, Nat.pow_add]
    simp [leBytes, ih, List.range_succ_eq_map, shift]

/-- The first `m` little-endian bytes do not depend on how many more follow. -/
theorem take_leBytes {m n : Nat} (v : Nat) (h : m ≤ n) : (leBytes n v).take m = leBytes m v := by
  simp [leBytes_eq_map, ← List.map_take, List.take_range, h]

/-- Byte sequences of one length are equal where their little-endian values are. -/
theorem le_inj {a b : List Byte} (hlen : a.length = b.length) : le a = le b ↔ a = b := by
  refine ⟨fun hle => ?_, congrArg le⟩
  rw [← leBytes_le a, hlen, hle, leBytes_le b]

/-- A byte sequence holds the low bytes of `v` where its value is that of `v`'s low bits. -/
theorem leBytes_eq_iff {n : Nat} (v : Nat) {b : List Byte} (hlen : b.length = n) :
    leBytes n v = b ↔ v % 256 ^ n = le b := by
  rw [← le_inj (by simp [hlen]), le_leBytes]

/-- MAGIC as a little-endian number (30_encoding R92). -/
theorem le_magic : le Config.magic.toList = 0x444956206574616479616C50 := by decide

/-- The HEADER decoder accepts 28 bytes that begin with MAGIC and nothing else (30_encoding R90, R92). -/
theorem exists_decode_header_iff (b : List Byte) :
    (∃ i, decode .header b = .ok i) ↔ b.length = 28 ∧ b.take 12 = Config.magic.toList := by
  rw [decode, decodeHeader]
  split_ifs with hlen hmagic
  · simp [hlen, hmagic]
  · simp [hmagic]
  · simp [hlen]

/-- Settles O51: MAGIC is compared on the first 12 of the 28 bytes, which are the low 96 bits. -/
theorem headerMatchesOnMagic : Obligations.HeaderMatchesOnMagic := by
  intro H _
  rw [← leBytes_eq_map, exists_decode_header_iff, take_leBytes H (by decide),
    leBytes_eq_iff H (by simp), le_magic, Nat.and_two_pow_sub_one_eq_mod]
  simp

end Sys2Proof
end

section
/-! Every word as an ENTRY (30_encoding R97, R100). -/

namespace Sys2Proof

/-- The ENTRY instruction of a frame type and an offset (30_encoding R97, R98). -/
def entryInstr : FrameType → BitVec 30 → Instr
  | .empty => .entryEmpty
  | .iFrame => .entryIFrame
  | .pFrame => .entryPFrame
  | .ipFrame => .entryIPFrame

/-- The claims' four bytes of a word are the encoder's. -/
theorem bytes4_eq_wordBytes (w : Word) : Claim.bytes4 w = wordBytes w :=
  calc Claim.bytes4 w
    _ = (List.range 4).map fun k => w.extractLsb' (8 * k) 8 := rfl
    _ = wordBytes w := by
      simp only [wordBytes, leBytes_eq_map, BitVec.extractLsb', Nat.shiftRight_eq_div_pow]

/-- The entry decoder never fails on a word: it reads off its type and its offset (30_encoding R100). -/
theorem decode_entry_bytes4 (e : Word) :
    decode .entry (Claim.bytes4 e) = .ok (entryInstr (entryType e) (entryOffset e)) := by
  rw [bytes4_eq_wordBytes, decode, decodeEntry, if_pos (wordBytes_length e), wordOf_wordBytes]
  cases entryType e <;> rfl

/-- The type field is the word modulo 4 (30_encoding R97). -/
theorem entryType_of_mod_four {e : Word} {t : FrameType} (h : e.toNat % 4 = t.tag.toNat) :
    entryType e = t := by
  have low : e.extractLsb' 0 2 = t.tag := BitVec.eq_of_toNat_eq (by simpa using h)
  rw [entryType, low, FrameType.ofTag_tag]

/-- The offset field is the word divided by 4 (30_encoding R97). -/
theorem entryOffset_eq_div_four (e : Word) : entryOffset e = BitVec.ofNat 30 (e.toNat / 4) := by
  rw [entryOffset, BitVec.extractLsb', Nat.shiftRight_eq_div_pow]

/-- A word of a type's residue modulo 4 decodes as the ENTRY of that type. -/
theorem decode_entry_of_mod_four {e : Word} (t : FrameType) (h : e.toNat % 4 = t.tag.toNat) :
    decode .entry (Claim.bytes4 e) = .ok (entryInstr t (BitVec.ofNat 30 (e.toNat / 4))) := by
  rw [decode_entry_bytes4, entryType_of_mod_four h, entryOffset_eq_div_four]

/-- Settles O50: each of the four residues is the tag of one frame type. -/
theorem everyWordIsAnEntry : Obligations.EveryWordIsAnEntry := fun _ =>
  ⟨decode_entry_of_mod_four .empty, decode_entry_of_mod_four .iFrame,
    decode_entry_of_mod_four .pFrame, decode_entry_of_mod_four .ipFrame⟩

end Sys2Proof
end

section
/-! EOFF, ETYPE and EPACK in the vocabulary of the claims (40_entry_codec R120 to R126). -/

namespace Sys2Proof.Machine

open Sys2Proof.Claim

/-! ## What each of the three presents on the operation port -/

/-- EOFF answers the word `eoff` computes. -/
theorem exec_eoff (e : Word) (s : State) : exec (.eoff e) s = .next (s.answer (.word (eoff e))) := rfl

/-- ETYPE answers the frame type `etype` computes. -/
theorem exec_etype (e : Word) (s : State) :
    exec (.etype e) s = .next (s.answer (.frameType (etype e))) := rfl

/-- EPACK answers the word where `epack` packs. -/
theorem exec_epack_of_ok {o w : Word} {t : FrameType} (h : epack o t = .ok w) (s : State) :
    exec (.epack o t) s = .next (s.answer (.word w)) := by
  rw [exec, execEpack, h]

/-- EPACK answers the error where `epack` rejects; no error record is latched (40_entry_codec R126). -/
theorem exec_epack_of_error {o : Word} {t : FrameType} {c : ErrCode} (h : epack o t = .error c)
    (s : State) : exec (.epack o t) s = .next (s.answer (.error c)) := by
  rw [exec, execEpack, h]

/-! ## The fields as arithmetic -/

/-- EOFF is the word divided by 4, as a word (40_entry_codec R121). -/
theorem eoff_eq_div_four (e : Word) : eoff e = BitVec.ofNat 32 (e.toNat / 4) := by
  rw [← eoff_toNat, BitVec.ofNat_toNat, BitVec.setWidth_eq]

/-- The type numbered `n` has the residue of `n` modulo 4 as its tag (40_entry_codec R120). -/
theorem tag_typeNumbered (n : Nat) : (typeNumbered n).tag.toNat = n % 4 := by
  have bound : n % 4 < 4 := Nat.mod_lt n (by decide)
  unfold typeNumbered
  split_ifs <;> simp only [FrameType.tag, BitVec.reduceToNat] <;> omega

/-- ETYPE is the type numbered by the word (40_entry_codec R122). -/
theorem etype_eq_typeNumbered (e : Word) : etype e = typeNumbered e.toNat :=
  entryType_of_mod_four (tag_typeNumbered e.toNat).symm

/-- The type field EPACK writes holds the claims' number of the type (40_entry_codec R120). -/
theorem epack_typeField_toNat (t : FrameType) : (t.tag.setWidth 32 &&& (3 : Word)).toNat = tagNumber t := by
  cases t <;> rfl

/-- The number of a type fits in the two low bits (40_entry_codec R120). -/
theorem tagNumber_lt_four (t : FrameType) : tagNumber t < 4 := by cases t <;> decide

/-- Shifting in the type field below an offset that fits loses no bit of either (40_entry_codec R124). -/
theorem packed_eq_ofNat {o : Word} (t : FrameType) (h : o.toNat < 2 ^ 30) :
    (o <<< 2) ||| (t.tag.setWidth 32 &&& 3) = BitVec.ofNat 32 (4 * o.toNat + tagNumber t) := by
  have fits : tagNumber t < 2 ^ 2 := tagNumber_lt_four t
  have shifted : (o <<< 2).toNat = o.toNat <<< 2 := by
    rw [BitVec.toNat_shiftLeft, Nat.mod_eq_of_lt (by rw [Nat.shiftLeft_eq]; omega)]
  apply BitVec.eq_of_toNat_eq
  rw [BitVec.toNat_or, shifted, epack_typeField_toNat, ← Nat.shiftLeft_add_eq_or_of_lt fits,
    Nat.shiftLeft_eq, BitVec.toNat_ofNat]
  omega

/-- EPACK rejects exactly the offsets from 2^30 on (40_entry_codec R124). -/
theorem epack_guard_iff (o : Word) : o > 0x3FFFFFFF ↔ 2 ^ 30 ≤ o.toNat := by
  rw [gt_iff_lt, BitVec.lt_def]
  exact Nat.succ_le_iff.symm

/-- EPACK packs an offset below 2^30 (40_entry_codec R124). -/
theorem epack_eq_ok {o : Word} (t : FrameType) (h : o.toNat < 2 ^ 30) :
    epack o t = .ok (BitVec.ofNat 32 (4 * o.toNat + tagNumber t)) := by
  rw [epack, if_neg (mt (epack_guard_iff o).1 h.not_ge), packed_eq_ofNat t h]

/-- EPACK rejects an offset that does not fit in 30 bits (40_entry_codec R126). -/
theorem epack_eq_offsetTooLarge {o : Word} (t : FrameType) (h : 2 ^ 30 ≤ o.toNat) :
    epack o t = .error .offsetTooLarge := by
  rw [epack, if_pos ((epack_guard_iff o).2 h)]

/-! ## The statements -/

/-- Settles O1: EOFF's answer is the word divided by 4. -/
theorem eoffAnswersOffset : Obligations.EoffAnswersOffset := fun e s =>
  ⟨rfl, by rw [exec_eoff, eoff_eq_div_four, State.answer]⟩

/-- Settles O2: ETYPE's answer is the type numbered by the word. -/
theorem etypeAnswersLowBits : Obligations.EtypeAnswersLowBits := fun e s =>
  ⟨rfl, by rw [exec_etype, etype_eq_typeNumbered, State.answer]⟩

/-- Settles O3: EPACK's guard parts the offsets at 2^30, and each side has its answer. -/
theorem epackPacksOrRejects : Obligations.EpackPacksOrRejects := fun _ t s =>
  ⟨rfl, fun fits => exec_epack_of_ok (epack_eq_ok t fits) s,
    fun large => exec_epack_of_error (epack_eq_offsetTooLarge t large) s⟩

end Sys2Proof.Machine
end

section
/-! The multi-byte fields of a record in the vocabulary of the claims (00_scope R10, 30_encoding R91). -/

namespace Sys2Proof

open Sys2Proof.Claim

/-- A field's value is its lowest byte and 256 times the rest; a byte past the end counts as 0. -/
theorem le_sliceOf_succ (b : List Byte) (k n : Nat) :
    le (sliceOf b k (n + 1)) = at' b k + 2 ^ 8 * le (sliceOf b (k + 1) n) := by
  rcases Nat.lt_or_ge k b.length with inside | outside
  · rw [sliceOf, List.drop_eq_getElem_cons inside, List.take_succ_cons, le, at',
      List.getD_eq_getElem _ _ inside]
    rfl
  · have past : b.length ≤ k + 1 := Nat.le_succ_of_le outside
    simp [sliceOf, at', le, List.drop_eq_nil_of_le, outside, past]

@[simp] theorem le_sliceOf_zero (b : List Byte) (k : Nat) : le (sliceOf b k 0) = 0 := by
  rw [sliceOf, List.take_zero, le]

/-- The decoder's 16-bit field is the claims' (30_encoding R91). -/
theorem halfOf_sliceOf (b : List Byte) (k : Nat) : halfOf (sliceOf b k 2) = u16 b k := by
  simp only [halfOf, u16, le_sliceOf_succ, le_sliceOf_zero, Nat.mul_zero, Nat.add_zero]

/-- The decoder's 32-bit field is the claims' (30_encoding R91). -/
theorem wordOf_sliceOf (b : List Byte) (k : Nat) : wordOf (sliceOf b k 4) = u32 b k := by
  have value : le (sliceOf b k 4) =
      at' b k + 2 ^ 8 * at' b (k + 1) + 2 ^ 16 * at' b (k + 2) + 2 ^ 24 * at' b (k + 3) := by
    simp only [le_sliceOf_succ, le_sliceOf_zero]
    ring
  rw [wordOf, value, u32]

/-- The claims' two bytes of a half are the encoder's. -/
theorem bytes2_eq_halfBytes (h : Half) : bytes2 h = halfBytes h :=
  calc bytes2 h
    _ = (List.range 2).map fun k => h.extractLsb' (8 * k) 8 := rfl
    _ = halfBytes h := by
      simp only [halfBytes, leBytes_eq_map, BitVec.extractLsb', Nat.shiftRight_eq_div_pow]

/-- The fields of a record that begins with MAGIC (41_header_codec R142). -/
theorem headerOf_of_magic {b : List Byte} (hlen : b.length = 28)
    (hmagic : b.take 12 = Config.magic.toList) :
    headerOf b =
      { magic := Config.magic, reserved1 := u32 b 12, numFrames := u16 b 16, reserved2 := u16 b 18,
        frameRate := u32 b 20, width := u16 b 24, height := u16 b 26 } := by
  have magic : magicOf b = Config.magic := (magicOf_eq_iff b _ (by omega)).2 hmagic
  simp only [headerOf, magic, wordOf_sliceOf, halfOf_sliceOf]

end Sys2Proof
end

section
/-! HPARSE, HBUILD, S_HDR and S_DIM in the vocabulary of the claims (41_header_codec R142 to R152). -/

namespace Sys2Proof.Machine

open Sys2Proof.Claim

/-! ## HPARSE and HBUILD -/

/-- HPARSE accepts a record that begins with MAGIC (41_header_codec R142). -/
theorem hparse_of_magic {b : List Byte} (h : b.take 12 = Config.magic.toList) :
    hparse b = .ok (headerOf b) := if_pos h

/-- HPARSE rejects any other record (41_header_codec R143). -/
theorem hparse_of_not_magic {b : List Byte} (h : b.take 12 ≠ Config.magic.toList) :
    hparse b = .error .invalidMagic := if_neg h

/-- 28 bytes are HPARSE's domain (30_encoding R106 d). -/
theorem hparseDomain_of_length {b : List Byte} (hlen : b.length = 28) : hparseDomain b = true :=
  decide_eq_true hlen

/-- HPARSE presents the header of 28 bytes that parse. -/
theorem exec_hparse_of_ok {b : List Byte} {h : Header} (hlen : b.length = 28) (hb : hparse b = .ok h)
    (s : State) : exec (.hparse b) s = .next (s.answer (.header h)) := by
  rw [exec, execHparse, if_pos (hparseDomain_of_length hlen), hb]

/-- HPARSE presents the error of 28 bytes that do not; no error record is latched. -/
theorem exec_hparse_of_error {b : List Byte} {e : ErrCode} (hlen : b.length = 28)
    (hb : hparse b = .error e) (s : State) : exec (.hparse b) s = .next (s.answer (.error e)) := by
  rw [exec, execHparse, if_pos (hparseDomain_of_length hlen), hb]

/-- HBUILD presents the bytes of the header it builds. -/
theorem exec_hbuild (r : Word) (w h : Half) (n : Option Half) (s : State) :
    exec (.hbuild r w h n) s = .next (s.answer (.bytes (headerBytes (hbuild r w h n)))) := rfl

/-- The record HBUILD builds: MAGIC, zero reserved fields, the operands (41_header_codec R145, R146). -/
theorem headerBytes_hbuild (r : Word) (w h : Half) (n : Option Half) :
    headerBytes (hbuild r w h n) =
      Config.magic.toList ++ [0, 0, 0, 0] ++ bytes2 (n.getD 0) ++ [0, 0] ++ bytes4 r ++ bytes2 w ++
        bytes2 h := by
  have reserved1 : wordBytes 0 = [0, 0, 0, 0] := by decide
  have reserved2 : halfBytes 0 = [0, 0] := by decide
  simp only [headerBytes, hbuild, reserved1, reserved2, bytes2_eq_halfBytes, bytes4_eq_wordBytes]

/-! ## S_HDR -/

/-- S_HDR whose read fails (41_header_codec R151). -/
theorem exec_sHdr_of_fail {s : State} (h : s.memRead 0 28 = .fail) :
    exec .sHdr s = .next (s.raise .ioError none 0) := by
  rw [exec, execSHdr, Config.headerSize, h]

/-- S_HDR whose read is answered takes HPARSE's verdict on the bytes (41_header_codec R150). -/
theorem exec_sHdr_of_bytes {s : State} {b : List Byte} (h : s.memRead 0 28 = .bytes b) :
    exec .sHdr s = .next (s.acceptHeader (hparse b)) := by
  rw [exec, execSHdr, Config.headerSize, h]

/-- The first bytes of a span are the shorter span at the same address. -/
theorem take_span (s : State) (a : Nat) {m n : Nat} (h : m ≤ n) : (span s a n).take m = span s a m := by
  rw [span, ← List.map_take, List.take_range, Nat.min_eq_left h, span]

@[simp] theorem span_length (s : State) (a n : Nat) : (span s a n).length = n := by simp [span]

/-! ## S_DIM -/

/-- `DimOk` is the claims' dimension invariant (41_header_codec R149). -/
theorem dimOk_iff (w h : Half) : dimOk w h = true ↔ DimsGood w h := by
  simp [dimOk, DimsGood, and_assoc]

/-- PLEN is the exact eighth of a good product: the product's eighth fits in 32 bits (41_header_codec R152). -/
theorem eight_mul_payloadLength {w h : Half} (good : DimsGood w h) :
    8 * (BitVec.ofNat 32 (payloadLength w h)).toNat = w.toNat * h.toNat := by
  obtain ⟨-, -, divisible⟩ := good
  have bound : w.toNat * h.toNat < 2 ^ 16 * 2 ^ 16 := Nat.mul_lt_mul'' w.isLt h.isLt
  rw [BitVec.toNat_ofNat, payloadLength]
  omega

/-- S_DIM where both dimensions hold values (41_header_codec R152). -/
theorem exec_sDim {s : State} {w h : Half} (hw : s.hWidth = some w) (hh : s.hHeight = some h) :
    exec .sDim s =
      .next (if dimOk w h
        then { s with plen := some (BitVec.ofNat 32 (payloadLength w h)), phase := .sTread }
        else s.raise .invalidDimensions none 24) := by
  rw [exec, execSDim, needValue_of hw, needValue_of hh]

/-! ## The statements -/

/-- Settles O5: 28 bytes are in HPARSE's domain, and the comparison with MAGIC decides between its answers. -/
theorem hparseChecksMagicThenFields : Obligations.HparseChecksMagicThenFields := fun _ s hlen =>
  ⟨rfl,
    fun hmagic => headerOf_of_magic hlen hmagic ▸ exec_hparse_of_ok hlen (hparse_of_magic hmagic) s,
    fun hmagic => exec_hparse_of_error hlen (hparse_of_not_magic hmagic) s⟩

/-- Settles O6: HBUILD's answer is the record it builds, byte by byte. -/
theorem hbuildAnswersHeaderBytes : Obligations.HbuildAnswersHeaderBytes := fun r w h n s =>
  ⟨rfl, by rw [exec_hbuild, headerBytes_hbuild, State.answer]⟩

/-- Settles O13: the read fails, or its 28 bytes begin with another magic, or they are latched. -/
theorem sHdrLatchesOrRaises : Obligations.SHdrLatchesOrRaises := by
  intro s
  refine ⟨rfl, fun unreadable => exec_sHdr_of_fail unreadable.memRead_eq_fail,
    fun readable other => ?_, fun readable hmagic => ?_⟩
  · rw [← take_span s 0 (show 12 ≤ 28 by decide)] at other
    rw [exec_sHdr_of_bytes readable.memRead_eq_bytes, hparse_of_not_magic other]
    rfl
  · rw [← take_span s 0 (show 12 ≤ 28 by decide)] at hmagic
    rw [exec_sHdr_of_bytes readable.memRead_eq_bytes, hparse_of_magic hmagic,
      headerOf_of_magic (span_length s 0 28) hmagic, State.acceptHeader, State.latchHeader, le_magic]
    rfl

/-- Settles O14: the dimension invariant decides, and the eighth it admits is exact. -/
theorem sDimComputesPlenOrRaises : Obligations.SDimComputesPlenOrRaises := fun s w h hw hh =>
  ⟨rfl,
    fun good => ⟨BitVec.ofNat 32 (payloadLength w h), eight_mul_payloadLength good, by
      rw [exec_sDim hw hh, if_pos ((dimOk_iff w h).2 good)]⟩,
    fun bad => by rw [exec_sDim hw hh, if_neg (mt (dimOk_iff w h).1 bad)]; rfl⟩

end Sys2Proof.Machine
end

section
/-! TVALID, S_TREAD and S_TVALID in the vocabulary of the claims (42_frame_table R161 to R164). -/

namespace Sys2Proof.Machine

open Sys2Proof.Claim

/-! ## S_TREAD -/

/-- The word of an entry's four bytes is the claims' u32 of them (30_encoding R97). -/
theorem wordOf_eq_u32 {b : List Byte} (hlen : b.length = 4) : wordOf b = u32 b 0 := by
  rw [← wordOf_sliceOf, sliceOf, List.drop_zero, List.take_of_length_le hlen.le]

/-- Where all entries are readable the table read answers their words in file order (42_frame_table R161). -/
theorem readEntries_of_readable {s : State} {n : Nat} (readable : ∀ j, j < n → Readable s (28 + 4 * j) 4) :
    s.readEntries n 0 = .words ((List.range n).map fun j => u32 (span s (28 + 4 * j) 4) 0) := by
  refine State.readEntries_eq_words.2 ⟨by simp, fun k hk => ⟨span s (28 + 4 * k) 4, ?_, ?_⟩⟩
  · rw [Nat.zero_add, (readable k hk).memRead_eq_bytes]
  · rw [wordOf_eq_u32 (span_length s _ 4), List.getElem?_map, List.getElem?_range hk, Option.map_some]

/-- The table read fails at the first entry that cannot be read (42_frame_table R162). -/
theorem readEntries_of_unreadable {s : State} {n j : Nat} (hj : j < n)
    (before : ∀ k, k < j → Readable s (28 + 4 * k) 4) (unreadable : Unreadable s (28 + 4 * j) 4) :
    s.readEntries n 0 = .failed j := by
  refine State.readEntries_eq_failed.2 ⟨j, hj, (Nat.zero_add j).symm, ?_,
    fun k hk => ⟨span s (28 + 4 * k) 4, ?_⟩⟩
  · rw [Nat.zero_add, unreadable.memRead_eq_fail]
  · rw [Nat.zero_add, (before k hk).memRead_eq_bytes]

/-- S_TREAD latches the `H_NUMFRAMES + 1` words its reads give (42_frame_table R161). -/
theorem exec_sTread_of_words {s : State} {n : Half} {ws : List Word} (hn : s.hNumFrames = some n)
    (h : s.readEntries (n.toNat + 1) 0 = .words ws) :
    exec .sTread s = .next (s.latchTable ws (n.toNat + 1)) := by
  rw [exec, execSTread, needValue_of hn, h]

/-- S_TREAD raises IoError at the entry its reads fail at (42_frame_table R162). -/
theorem exec_sTread_of_failed {s : State} {n : Half} {j : Nat} (hn : s.hNumFrames = some n)
    (h : s.readEntries (n.toNat + 1) 0 = .failed j) :
    exec .sTread s = .next (s.raise .ioError none (28 + 4 * j)) := by
  rw [exec, execSTread, needValue_of hn, h]
  rfl

/-! ## TVALID and S_TVALID -/

/-- TVALID presents the verdict of `tvalid`. -/
theorem exec_tvalid (t : List Word) (s : State) :
    exec (.tvalid t) s = .next (s.answer (.bool (tvalid t))) := rfl

/-- TVALID is true where there is a last word and its type is Empty (42_frame_table R163). -/
theorem tvalid_iff (t : List Word) :
    tvalid t = true ↔ ∃ e, t.getLast? = some e ∧ e.toNat % 4 = 0 := by
  unfold tvalid
  cases t.getLast? with
  | none => simp
  | some e => simp [etype_eq_empty_iff]

/-- On `TABLE[0 .. n-1]` TVALID looks at `TABLE[n-1]` alone (42_frame_table R163, R164). -/
theorem tvalid_take_iff {t : List Word} {n : Nat} {e : Word} (hpos : 1 ≤ n)
    (last : t[n - 1]? = some e) : tvalid (t.take n) = true ↔ e.toNat % 4 = 0 := by
  have takenLast : (t.take n).getLast? = some e := by
    rw [List.getLast?_take, if_neg (Nat.one_le_iff_ne_zero.1 hpos), last, Option.some_or]
  simp [tvalid_iff, takenLast]

/-- S_TVALID decides by TVALID's verdict on the words T_LEN counts (42_frame_table R164). -/
theorem exec_sTvalid {s : State} {n : Index} (hn : s.tLen = some n) (held : n.toNat ≤ s.table.length) :
    exec .sTvalid s = .next (s.checkTerminator (tvalid (s.table.take n.toNat)) n) := by
  rw [exec, execSTvalid, needValue_of hn, State.heldTable, if_pos held, needValue_some]

/-! ## The statements -/

/-- Settles O15: the reads give every word, or stop at the first entry that cannot be read. -/
theorem sTreadLatchesTableOrRaises : Obligations.STreadLatchesTableOrRaises := fun _ _ hn =>
  ⟨rfl,
    fun readable => exec_sTread_of_words hn
      (readEntries_of_readable fun j hj => readable j (Nat.le_of_lt_succ hj)),
    fun _ hj before unreadable => exec_sTread_of_failed hn
      (readEntries_of_unreadable (Nat.lt_succ_of_le hj) before unreadable)⟩

/-- Settles O8: TVALID's verdict is true where the last word is Empty-typed. -/
theorem tvalidAnswersLastType : Obligations.TvalidAnswersLastType := fun t s =>
  ⟨rfl, tvalid t, exec_tvalid t s, tvalid_iff t⟩

/-- Settles O16: TVALID's verdict on the held table is the last entry's type, and each of S_TVALID's ways
out has its own clause. -/
theorem sTvalidChecksLastEntry : Obligations.STvalidChecksLastEntry := by
  intro s n e hn hpos held last
  have valid_iff := tvalid_take_iff hpos last
  rw [exec_sTvalid hn held]
  obtain ⟨valid, one, out⟩ | ⟨valid, many, out⟩ | ⟨invalid, out⟩ :=
    s.checkTerminator_cases (tvalid (s.table.take n.toNat)) n
  · rw [out]
    exact ⟨rfl, fun _ _ => rfl, fun _ many => absurd one many,
      fun other => absurd (valid_iff.1 valid) other⟩
  · rw [out]
    exact ⟨rfl, fun _ one => absurd one many, fun _ _ => rfl,
      fun other => absurd (valid_iff.1 valid) other⟩
  · have other : e.toNat % 4 ≠ 0 := fun empty => by simp [valid_iff.2 empty] at invalid
    have address : 28 + 4 * n.toNat - 4 = 28 + 4 * (n.toNat - 1) := by omega
    rw [out, address]
    exact ⟨rfl, fun empty => absurd empty other, fun empty => absurd empty other, fun _ => rfl⟩

end Sys2Proof.Machine
end

section
/-! The raster of a payload, element by element (44_raster_expander R210 to R214). -/

namespace Sys2Proof.Machine

open Sys2Proof.Claim

/-- A single bit, widened to a raster element, is 0 or 1. -/
theorem extractBit_eq_pixel (v : Byte) (k : Nat) :
    (v.extractLsb' k 1).setWidth 8 = if v.getLsbD k then (1 : Pixel) else 0 := by
  rw [BitVec.getLsbD_eq_extractLsb']
  generalize v.extractLsb' k 1 = bit
  revert bit
  decide

/-- Element `k` of REXP's answer is bit `7 - k` of its operand, as 0 or 1 (44_raster_expander R211). -/
theorem rexp_eq_map (v : Byte) :
    rexp v = (List.range 8).map fun k => if v.getLsbD (7 - k) then 1 else 0 := by
  simp only [rexp, extractBit_eq_pixel]
  rfl

/-- The first byte's bits are the first eight elements. -/
theorem pixel_cons_of_lt (v : Byte) (p : List Byte) {k : Nat} (h : k < 8) :
    pixel (v :: p) k = if v.getLsbD (7 - k) then 1 else 0 := by
  rw [pixel, Nat.div_eq_of_lt h, Nat.mod_eq_of_lt h, List.getD_cons_zero]

/-- Eight elements on, a raster is that of the bytes after the first. -/
theorem pixel_cons_eight_add (v : Byte) (p : List Byte) (k : Nat) :
    pixel (v :: p) (8 + k) = pixel p k := by
  have next : (8 + k) / 8 = k / 8 + 1 := by omega
  rw [pixel, next, Nat.add_mod_left, List.getD_cons_succ, pixel]

/-- The expansions of a payload's bytes, one after the other, are its bits, most significant first
(44_raster_expander R212). -/
theorem flatMap_rexp (p : List Byte) : p.flatMap rexp = (List.range (8 * p.length)).map (pixel p) := by
  induction p with
  | nil => rfl
  | cons v p ih =>
    have first : rexp v = (List.range 8).map (pixel (v :: p)) := by
      rw [rexp_eq_map]
      exact List.map_congr_left fun k hk => (pixel_cons_of_lt v p (List.mem_range.1 hk)).symm
    have rest : p.flatMap rexp = (List.range (8 * p.length)).map fun k => pixel (v :: p) (8 + k) := by
      simp only [pixel_cons_eight_add, ih]
    rw [List.flatMap_cons, first, rest, List.length_cons, Nat.mul_succ, Nat.add_comm, List.range_add,
      List.map_append, List.map_map]
    rfl

/-- RASM inside its precondition: `width*height` elements, the payload's bits in order
(44_raster_expander R212). -/
theorem rasm_eq_map_pixel {p : List Byte} {w h : Half} (good : DimsGood w h)
    (hlen : p.length = w.toNat * h.toNat / 8) :
    rasm p w h = (List.range (w.toNat * h.toNat)).map (pixel p) := by
  obtain ⟨-, -, divisible⟩ := good
  have size : 8 * p.length = w.toNat * h.toNat := by
    rw [hlen, Nat.mul_div_cancel' (Nat.dvd_of_mod_eq_zero divisible)]
  rw [rasm, payloadLength, ← hlen, List.take_length, flatMap_rexp, size]

/-- RASM's precondition in the claims' words (44_raster_expander R212). -/
theorem rasmDomain_iff (p : List Byte) (w h : Half) :
    rasmDomain p w h = true ↔ DimsGood w h ∧ p.length = w.toNat * h.toNat / 8 := by
  rw [rasmDomain, Bool.and_eq_true, dimOk_iff, decide_eq_true_iff, payloadLength]

end Sys2Proof.Machine
end

section
/-! START and the steps from S_SPAN to S_NEXT in the vocabulary of the claims (43_frame_extraction R177 to
R187). -/

namespace Sys2Proof.Machine

open Sys2Proof.Claim

/-! ## What each instruction goes on with where the elements it reads hold values -/

/-- START begins the session in IDLE (43_frame_extraction R177). -/
theorem exec_run_of_idle {s : State} (h : s.phase = .idle) (b : List Byte) (n : Word) :
    exec (.run b n) s = .next (s.start b n) := by
  rw [exec, execRun, if_pos h]

/-- START is refused outside IDLE (43_frame_extraction R177). -/
theorem exec_run_of_not_idle {s : State} (h : s.phase ≠ .idle) (b : List Byte) (n : Word) :
    exec (.run b n) s = .next (s.answer .refused) := by
  rw [exec, execRun, if_neg h]

/-- S_SPAN resolves the offsets of the entries IDX and IDX+1 (43_frame_extraction R179). -/
theorem exec_sSpan {s : State} {d e e' : Word} (hd : s.dataBase = some d)
    (he : s.table[s.idx.toNat]? = some e) (he' : s.table[s.idx.toNat + 1]? = some e') :
    exec .sSpan s = .next (s.resolveSpan d (eoff e) (eoff e')) := by
  rw [exec, execSSpan, needValue_of hd, needValue_of he, needValue_of he']

section
variable {s : State} {a z : Word} (ha : s.spanStart = some a) (hz : s.spanEnd = some z)
  (hle : a.toNat ≤ z.toNat)
include ha hz hle

/-- S_FETCH holds the span where its read is answered (43_frame_extraction R182). -/
theorem exec_sFetch_of_bytes {b : List Byte} (h : s.memRead a.toNat (z.toNat - a.toNat) = .bytes b) :
    exec .sFetch s = .next { s with cbuf := some b, cursor := z, phase := .sInfl } := by
  rw [exec, execSFetch, needValue_of ha, needValue_of hz, if_neg hle.not_gt, h]

/-- S_FETCH raises IoError at the span's start where its read fails (43_frame_extraction R182). -/
theorem exec_sFetch_of_fail (h : s.memRead a.toNat (z.toNat - a.toNat) = .fail) :
    exec .sFetch s = .next (s.raise .ioError (some s.idx) a.toNat) := by
  rw [exec, execSFetch, needValue_of ha, needValue_of hz, if_neg hle.not_gt, h]

end

section
variable {s : State} {c : List Byte} (hc : s.cbuf = some c)
include hc

/-- S_INFL compares the length of the payload Inflate answers with PLEN (43_frame_extraction R184). -/
theorem exec_sInfl_of_ok {p : List Byte} {n : Word} (h : s.askInflate c = .ok p) (hn : s.plen = some n) :
    exec .sInfl s =
      if p.length = n.toNat then .next { s with pbuf := some p, phase := .sExpand }
      else raiseAtSpan s .corruptFrame := by
  rw [exec, execSInfl, needValue_of hc, h]
  exact needValue_of hn

/-- S_INFL raises CorruptFrame where Inflate fails (43_frame_extraction R183). -/
theorem exec_sInfl_of_fail (h : s.askInflate c = .fail) :
    exec .sInfl s = raiseAtSpan s .corruptFrame := by
  rw [exec, execSInfl, needValue_of hc, h]

end

/-- S_EXPAND inside RASM's precondition emits the raster and counts it (43_frame_extraction R185). -/
theorem exec_sExpand {s : State} {p : List Byte} {w h : Half} (hp : s.pbuf = some p)
    (hw : s.hWidth = some w) (hh : s.hHeight = some h) (domain : rasmDomain p w h = true) :
    exec .sExpand s =
      .next { s.emit (s.idx.toNat + 1) w h (rasm p w h) with
        raster := some (rasm p w h), framesOut := s.framesOut + 1, phase := .sNext } := by
  rw [exec, execSExpand, needValue_of hp, needValue_of hw, needValue_of hh, if_pos domain]

/-- S_NEXT decides by the type of the entry IDX+1 (43_frame_extraction R187). -/
theorem exec_sNext {s : State} {e : Word} {n : Index} (he : s.table[s.idx.toNat + 1]? = some e)
    (hn : s.tLen = some n) : exec .sNext s = .next (s.advance (etype e) n) := by
  rw [exec, execSNext, needValue_of he, needValue_of hn]

/-- The index after `i`, as an index (43_frame_extraction R187). -/
theorem ofNat_toNat_succ (i : Index) : BitVec.ofNat 17 (i.toNat + 1) = i + 1 :=
  BitVec.eq_of_toNat_eq (by simp)

/-! ## Raising at an address that a register holds -/

/-- An error raised at a 32-bit address has that address as its offset (10_state R40). -/
theorem State.raise_toNat (s : State) (e : ErrCode) (i : Option Index) (a : Word) :
    s.raise e i a.toNat = { s with errCode := e, errIndex := i, errOffset := a, phase := .error } := by
  rw [State.raise, BitVec.ofNat_toNat, BitVec.setWidth_eq]

/-- Raising with SPAN_START as the context, where it holds a value (43_frame_extraction R183). -/
theorem raiseAtSpan_of {s : State} {a : Word} (ha : s.spanStart = some a) (e : ErrCode) :
    raiseAtSpan s e =
      .next { s with errCode := e, errIndex := some s.idx, errOffset := a, phase := .error } := by
  rw [raiseAtSpan, needValue_of ha, State.raise_toNat]

/-! ## The statements -/

/-- Settles O20: good dimensions and a whole payload are RASM's precondition, where the raster is the
payload's bits. -/
theorem sExpandEmitsRaster : Obligations.SExpandEmitsRaster := fun s p w h hp hw hh good hlen =>
  ⟨rfl, by
    rw [exec_sExpand hp hw hh ((rasmDomain_iff p w h).2 ⟨good, hlen⟩), rasm_eq_map_pixel good hlen,
      State.emit]⟩

/-- Settles O23: PHASE alone decides; the STREAM taken is the presented bytes in canonical form. -/
theorem startBeginsSessionInIdleOnly : Obligations.StartBeginsSessionInIdleOnly := by
  intro b n s
  refine ⟨rfl, fun idle => ⟨(s.start b n).stream, fun a inside v hv => ?_, Memory.ofBytes_wf 0 _,
    exec_run_of_idle idle b n⟩, fun busy => exec_run_of_not_idle busy b n⟩
  rw [s.start_read, if_pos inside, List.getD_eq_getElem?_getD, hv, Option.getD_some]

/-- Settles O17: the offsets are the entries divided by 4, and each of S_SPAN's ways out has its own clause. -/
theorem sSpanResolvesOrRaises : Obligations.SSpanResolvesOrRaises := by
  intro s d e e' hd he he'
  have ways := s.resolveSpan_cases d (eoff e) (eoff e')
  rw [eoff_toNat, eoff_toNat] at ways
  rw [exec_sSpan hd he he']
  obtain ⟨outside, out⟩ | ⟨ordered, inside, out⟩ := ways
  · rw [out]
    exact ⟨rfl, fun _ => rfl, fun ordered inside => by omega⟩
  · rw [out]
    exact ⟨rfl, fun outside => by omega, fun _ _ => rfl⟩

/-- Settles O18: the span's read is answered with its bytes, or fails. -/
theorem sFetchReadsExactSpan : Obligations.SFetchReadsExactSpan := fun s a z ha hz hle =>
  ⟨rfl,
    fun readable => exec_sFetch_of_bytes ha hz hle readable.memRead_eq_bytes,
    fun unreadable => by
      rw [exec_sFetch_of_fail ha hz hle unreadable.memRead_eq_fail, State.raise_toNat]⟩

/-- Settles O19: Inflate's answer, and the length of its payload, decide between PBUF and CorruptFrame. -/
theorem sInflHoldsPayloadOrRaises : Obligations.SInflHoldsPayloadOrRaises := fun s c hc =>
  ⟨rfl,
    fun p n answer hn whole => by rw [exec_sInfl_of_ok hc answer hn, if_pos whole],
    fun p n a answer hn other ha => by
      rw [exec_sInfl_of_ok hc answer hn, if_neg other, raiseAtSpan_of ha],
    fun a failure ha => by rw [exec_sInfl_of_fail hc failure, raiseAtSpan_of ha]⟩

/-- Settles O21: S_NEXT stops at an Empty type or at the last entry, and advances IDX otherwise. -/
theorem sNextStopsOrAdvances : Obligations.SNextStopsOrAdvances := by
  intro s e n he hn
  rw [exec_sNext he hn, ofNat_toNat_succ]
  simp only [Ne, ← etype_eq_empty_iff e]
  obtain ⟨stops, out⟩ | ⟨more, inner, out⟩ := s.advance_cases (etype e) n
  · rw [out]
    exact ⟨rfl, fun _ => rfl, fun _ => rfl, fun ⟨more, inner⟩ => absurd stops (not_or.2 ⟨more, inner⟩)⟩
  · rw [out]
    exact ⟨rfl, fun ⟨empty, _⟩ => absurd empty more, fun last => absurd last inner, fun _ => rfl⟩

end Sys2Proof.Machine
end

section
/-! REXP and RASM on the operation port (44_raster_expander R211, R212). -/

namespace Sys2Proof.Machine

open Sys2Proof.Claim

/-- REXP answers its operand's expansion (44_raster_expander R211). -/
theorem exec_rexp (v : Byte) (s : State) : exec (.rexp v) s = .next (s.answer (.pixels (rexp v))) := rfl

section
variable {p : List Byte} {w h : Half} (s : State)

/-- RASM inside its precondition answers the raster (44_raster_expander R212). -/
theorem exec_rasm_of_domain (domain : rasmDomain p w h = true) :
    exec (.rasm p w h) s = .next (s.answer (.pixels (rasm p w h))) := by
  rw [exec, execRasm, if_pos domain]

/-- RASM outside its precondition is refused (44_raster_expander R212). -/
theorem exec_rasm_of_not_domain (outside : ¬ rasmDomain p w h = true) :
    exec (.rasm p w h) s = .next (s.answer .refused) := by
  rw [exec, execRasm, if_neg outside]

end

/-! ## The statements -/

/-- Settles O9: REXP's answer is its operand's expansion, bit by bit. -/
theorem rexpAnswersBitsHighFirst : Obligations.RexpAnswersBitsHighFirst := fun v s =>
  ⟨rfl, by rw [exec_rexp, rexp_eq_map, State.answer]⟩

/-- Settles O10: good dimensions and a whole payload are RASM's precondition, which decides between the
payload's bits and the refusal. -/
theorem rasmAnswersRasterOrRefuses : Obligations.RasmAnswersRasterOrRefuses := fun p w h s =>
  ⟨rfl,
    fun inside => by
      obtain ⟨good, hlen⟩ := inside
      rw [exec_rasm_of_domain s ((rasmDomain_iff p w h).2 ⟨good, hlen⟩), rasm_eq_map_pixel good hlen,
        State.answer],
    fun outside => exec_rasm_of_not_domain s (mt (rasmDomain_iff p w h).1 outside)⟩

end Sys2Proof.Machine
end

section
/-! Steps that end in ERROR (60_exceptions R232): whatever PHASE it is taken in, a step operation that
ends there has raised. -/

namespace Sys2Proof.Machine

open Sys2Proof.Claim

/-- `t` is `s` after an error of the sequencer is raised: any error but OffsetTooLarge, which is EPACK's
answer alone (60_exceptions R231, R232). -/
def State.RaisesTo (s t : State) : Prop :=
  ∃ e index offset, e ≠ .none ∧ e ≠ .offsetTooLarge ∧ t = s.raise e index offset

theorem State.raisesTo_raise (s : State) {e : ErrCode} (index : Option Index) (offset : Nat)
    (he : e ≠ .none ∧ e ≠ .offsetTooLarge) : s.RaisesTo (s.raise e index offset) :=
  ⟨e, index, offset, he.1, he.2, rfl⟩

/-- Raising writes the error record and PHASE and keeps every other element (60_exceptions R232). -/
theorem State.RaisesTo.frame {s t : State} (h : s.RaisesTo t) :
    t.errCode ≠ .none ∧ t.errCode ≠ .offsetTooLarge ∧
      t = { s with errCode := t.errCode, errIndex := t.errIndex, errOffset := t.errOffset,
                   phase := .error } := by
  obtain ⟨e, index, offset, some_error, other, rfl⟩ := h
  exact ⟨some_error, other, rfl⟩

/-- S_TVALID's decision ends in ERROR only by raising (42_frame_table R164). -/
theorem State.raisesTo_checkTerminator {s : State} {v : Bool} {n : Index}
    (ends : (s.checkTerminator v n).phase = .error) : s.RaisesTo (s.checkTerminator v n) := by
  obtain ⟨_, _, out⟩ | ⟨_, _, out⟩ | ⟨_, out⟩ := s.checkTerminator_cases v n <;> rw [out] at ends ⊢
  · cases ends
  · cases ends
  · exact s.raisesTo_raise _ _ (by decide)

/-- S_SPAN's range resolution ends in ERROR only by raising (43_frame_extraction R179 to R181). -/
theorem State.raisesTo_resolveSpan {s : State} {d a z : Word}
    (ends : (s.resolveSpan d a z).phase = .error) : s.RaisesTo (s.resolveSpan d a z) := by
  obtain ⟨_, out⟩ | ⟨_, _, out⟩ := s.resolveSpan_cases d a z <;> rw [out] at ends ⊢
  · exact s.raisesTo_raise _ _ (by decide)
  · cases ends

/-- S_NEXT's decision never ends in ERROR (43_frame_extraction R187). -/
theorem State.advance_phase_ne_error (s : State) (ty : FrameType) (n : Index) :
    (s.advance ty n).phase ≠ .error := by
  obtain ⟨_, out⟩ | ⟨_, _, out⟩ := s.advance_cases ty n <;> simp [out]

/-- A step operation that leads from another PHASE to ERROR has raised: a step that does not complete
stays where it is, and one that succeeds names another PHASE (60_exceptions R232). -/
theorem raisesTo_of_exec_stepOp {s t : State} {i : Instr} (hi : i ∈ stepOps)
    (starts : s.phase ≠ .error) (h : exec i s = .next t) (ends : t.phase = .error) : s.RaisesTo t := by
  simp only [stepOps, List.mem_cons, List.not_mem_nil, or_false] at hi
  rcases hi with rfl | rfl | rfl | rfl | rfl | rfl | rfl | rfl | rfl
  · obtain ⟨_, rfl⟩ | ⟨_, rfl⟩ | ⟨_, _, _, rfl⟩ | ⟨_, _, _, rfl⟩ := execSHdr_cases h
    · exact absurd ends starts
    · exact s.raisesTo_raise _ _ (by decide)
    · exact s.raisesTo_raise _ _ (by decide)
    · cases ends
  · obtain ⟨_, _, _, _, ⟨_, rfl⟩ | ⟨_, rfl⟩⟩ := execSDim_cases h
    · cases ends
    · exact s.raisesTo_raise _ _ (by decide)
  · obtain ⟨_, _, ⟨_, rfl⟩ | ⟨_, _, rfl⟩ | ⟨_, _, rfl⟩⟩ := execSTread_cases h
    · exact absurd ends starts
    · exact s.raisesTo_raise _ _ (by decide)
    · cases ends
  · obtain ⟨_, _, _, rfl⟩ := execSTvalid_cases h
    exact State.raisesTo_checkTerminator ends
  · obtain ⟨_, _, _, _, _, _, rfl⟩ := execSSpan_cases h
    exact State.raisesTo_resolveSpan ends
  · obtain ⟨_, _, _, _, _, ⟨_, rfl⟩ | ⟨_, rfl⟩ | ⟨_, _, rfl⟩⟩ := execSFetch_cases h
    · exact absurd ends starts
    · exact s.raisesTo_raise _ _ (by decide)
    · cases ends
  · obtain ⟨_, _, ⟨_, rfl⟩ | ⟨_, _, _, rfl⟩ | ⟨_, _, _, _, _, rfl⟩⟩ := execSInfl_cases h
    · exact absurd ends starts
    · exact s.raisesTo_raise _ _ (by decide)
    · cases ends
  · obtain ⟨_, _, _, _, _, _, _, rfl⟩ := execSExpand_cases h
    cases ends
  · obtain ⟨_, _, _, _, rfl⟩ := execSNext_cases h
    exact absurd ends (s.advance_phase_ne_error _ _)

/-- Settles O33: `raise` is its four writes, and a step operation that ends in ERROR has raised. -/
theorem raisingStepHasNoPartialEffect : Obligations.RaisingStepHasNoPartialEffect :=
  ⟨by decide, fun _ _ _ _ => rfl, fun _ _ _ hi starts h ends =>
    (raisesTo_of_exec_stepOp hi starts h ends).frame⟩

end Sys2Proof.Machine
end

section
/-! RESET (70_reset_and_hazards R260). -/

namespace Sys2Proof.Machine

/-- RESET completes in every state, with the state elements at their reset values. -/
theorem exec_reset (s : State) : exec .reset s = .next s.toReset := rfl

/-- Settles O22: `toReset` is the state after reset (10_state R45) but for what is no state element (R20). -/
theorem resetClearsEveryElement : Obligations.ResetClearsEveryElement := fun s =>
  ⟨rfl, by rw [exec_reset, State.toReset, State.reset]⟩

end Sys2Proof.Machine
end

section
/-! The fields of a record, cut out of its bytes and put together again (30_encoding R91, 41_header_codec
R141), and the round trips of EDEC and HDR. -/

namespace Sys2Proof

open Sys2Proof.Machine Sys2Proof.Claim

/-! ## Fields cut out of a byte string -/

/-- A field and what follows it are what is left from the field on. -/
theorem sliceOf_append_drop (b : List Byte) {lo n hi : Nat} (h : lo + n = hi) :
    sliceOf b lo n ++ b.drop hi = b.drop lo := by
  rw [sliceOf, ← h, ← List.drop_drop, List.take_append_drop]

/-- A field that begins behind `a` is a field of what follows `a`. -/
theorem sliceOf_append_right {a b : List Byte} {lo n : Nat} (h : a.length ≤ lo) :
    sliceOf (a ++ b) lo n = sliceOf b (lo - a.length) n := by
  rw [sliceOf, List.drop_append, List.drop_eq_nil_of_le h, List.nil_append, sliceOf]

/-- The field at the front. -/
theorem sliceOf_append_left {a b : List Byte} {n : Nat} (h : a.length = n) :
    sliceOf (a ++ b) 0 n = a := by
  rw [sliceOf, List.drop_zero, List.take_left' h]

/-- A field that is the whole byte string. -/
theorem sliceOf_self {b : List Byte} {n : Nat} (h : b.length = n) : sliceOf b 0 n = b := by
  rw [sliceOf, List.drop_zero, List.take_of_length_le h.le]

/-- A 32-bit field inside the byte string is written as its bytes. -/
theorem wordBytes_sliceOf {b : List Byte} {lo : Nat} (h : lo + 4 ≤ b.length) :
    wordBytes (wordOf (sliceOf b lo 4)) = sliceOf b lo 4 :=
  wordBytes_wordOf _ (sliceOf_length b lo 4 h)

/-- A 16-bit field inside the byte string is written as its bytes. -/
theorem halfBytes_sliceOf {b : List Byte} {lo : Nat} (h : lo + 2 ≤ b.length) :
    halfBytes (halfOf (sliceOf b lo 2)) = sliceOf b lo 2 :=
  halfBytes_halfOf _ (sliceOf_length b lo 2 h)

/-! ## The HEADER -/

/-- A header's record begins with its magic (41_header_codec R141). -/
theorem take_headerBytes (h : Header) : (headerBytes h).take 12 = h.magic.toList := by
  simp [headerBytes]

/-- Every field is read back from a header's record (41_header_codec R141). -/
theorem headerOf_headerBytes (h : Header) : headerOf (headerBytes h) = h := by
  have magic : magicOf (headerBytes h) = h.magic :=
    (magicOf_eq_iff _ _ (by simp)).2 (take_headerBytes h)
  rw [headerOf, magic]
  simp [headerBytes, sliceOf_append_right, sliceOf_append_left, sliceOf_self]

/-- The record of the fields of 28 bytes is those 28 bytes (41_header_codec R141). -/
theorem headerBytes_headerOf {b : List Byte} (hlen : b.length = 28) : headerBytes (headerOf b) = b := by
  have magic : (magicOf b).toList = b.take 12 := magicOf_toList b (by omega)
  have last : sliceOf b 26 2 = b.drop 26 := List.take_of_length_le (by simp [hlen])
  simp only [headerBytes, headerOf, magic, List.append_assoc]
  rw [wordBytes_sliceOf, halfBytes_sliceOf, halfBytes_sliceOf, wordBytes_sliceOf, halfBytes_sliceOf,
    halfBytes_sliceOf, last]
  · simp [sliceOf_append_drop]
  all_goals omega

/-- Where HPARSE gives a header, the record begins with MAGIC and the fields are the record's
(41_header_codec R142, R143). -/
theorem hparse_eq_ok {b : List Byte} {h : Header} :
    hparse b = .ok h ↔ b.take 12 = Config.magic.toList ∧ headerOf b = h := by
  unfold hparse
  split_ifs with magic <;> simp [magic]

/-! ## The ENTRY -/

/-- The claims' number of a type is its tag (40_entry_codec R120). -/
theorem tag_toNat (t : FrameType) : t.tag.toNat = tagNumber t := by cases t <;> rfl

/-- A word is its offset and its type (40_entry_codec R121, R122). -/
theorem toNat_eq_eoff_etype (e : Word) : e.toNat = 4 * (eoff e).toNat + tagNumber (etype e) := by
  rw [← tag_toNat, etype_eq_typeNumbered, tag_typeNumbered, eoff_toNat]
  omega

/-- Packing what was unpacked gives the word back (40_entry_codec, section 5). -/
theorem epack_eoff_etype (e : Word) : epack (eoff e) (etype e) = .ok e := by
  have fits : (eoff e).toNat < 2 ^ 30 := by rw [eoff_toNat]; omega
  rw [epack_eq_ok _ fits, ← toNat_eq_eoff_etype, BitVec.ofNat_toNat, BitVec.setWidth_eq]

/-- Unpacking what was packed gives the offset and the type back (40_entry_codec, section 5). -/
theorem etype_eoff_of_packed {w o : Word} {t : FrameType} (h : w.toNat = 4 * o.toNat + tagNumber t) :
    etype w = t ∧ eoff w = o := by
  have low := tagNumber_lt_four t
  refine ⟨entryType_of_mod_four ?_, BitVec.eq_of_toNat_eq ?_⟩
  · rw [tag_toNat]; omega
  · rw [eoff_toNat]; omega

/-! ## The statements -/

/-- Settles O4: a packed word is four times the offset and the type's number, and every word is. -/
theorem packAndUnpackAreInverse : Obligations.PackAndUnpackAreInverse := by
  refine ⟨fun o t fits => ⟨_, epack_eq_ok t fits, etype_eoff_of_packed ?_⟩, epack_eoff_etype,
    fun e e' same => ?_⟩
  · have low := tagNumber_lt_four t
    rw [BitVec.toNat_ofNat, Nat.mod_eq_of_lt (by omega)]
  · obtain ⟨offsets, types⟩ := Prod.mk.inj same
    exact BitVec.eq_of_toNat_eq (by rw [toNat_eq_eoff_etype e, offsets, types, ← toNat_eq_eoff_etype e'])

/-- Settles O7: the seven fields lie one after the other in the record and fill it. -/
theorem headerRoundTrips : Obligations.HeaderRoundTrips := by
  refine ⟨fun h => ⟨headerBytes_length h, headerOf_headerBytes h⟩, fun r w h n => ?_,
    fun b h hlen parsed => ?_⟩
  · exact hparse_eq_ok.2 ⟨take_headerBytes _, headerOf_headerBytes _⟩
  · obtain ⟨magic, rfl⟩ := hparse_eq_ok.1 parsed
    exact ⟨headerBytes_headerOf hlen, (magicOf_eq_iff b _ (by omega)).2 magic⟩

end Sys2Proof
end

section
/-! The decoder and the encoder of ENTRY, HEADER and requests are inverse to each other (30_encoding, sections
2, 3 and 5). -/

namespace Sys2Proof

open Sys2Proof.Machine Sys2Proof.Claim

/-! ## The containers' words -/

/-- The bytes of an entry decode to the entry (30_encoding R97, R100). -/
theorem decode_entry_wordBytes (o : BitVec 30) (t : FrameType) :
    decode .entry (wordBytes (entryWord o t)) = .ok (entryInstr t o) := by
  rw [← bytes4_eq_wordBytes, decode_entry_bytes4, entryType_entryWord, entryOffset_entryWord]

/-- What four bytes decode to as an entry is written as those bytes (30_encoding R97, R100). -/
theorem eq_entryInstr_of_decode {b : List Byte} {i : Instr} (h : decode .entry b = .ok i) :
    ∃ o t, i = entryInstr t o ∧ wordBytes (entryWord o t) = b := by
  have hlen : b.length = 4 := by
    by_contra other
    rw [decode, decodeEntry, if_neg other] at h
    cases h
  have bytes : wordBytes (wordOf b) = b := wordBytes_wordOf b hlen
  rw [← bytes, ← bytes4_eq_wordBytes, decode_entry_bytes4] at h
  cases h
  exact ⟨_, _, rfl, by rw [entryWord_entryOffset, bytes]⟩

/-- An entry is well-formed, in the ENTRY format, and written as its word (30_encoding R97). -/
theorem entryInstr_encode (o : BitVec 30) (t : FrameType) :
    (entryInstr t o).wellFormed = true ∧ (entryInstr t o).format = .entry ∧
      encode (entryInstr t o) = wordBytes (entryWord o t) := by
  cases t <;> exact ⟨rfl, rfl, rfl⟩

/-- A record that begins with MAGIC decodes to its header (30_encoding R92). -/
theorem decode_header_eq_ok {b : List Byte} {i : Instr} :
    decode .header b = .ok i ↔
      b.length = 28 ∧ b.take 12 = Config.magic.toList ∧ i = .header (headerOf b) := by
  rw [decode, decodeHeader]
  split_ifs with hlen magic <;> simp [*, eq_comm]

/-! ## Requests -/

/-- An OPSEL in its byte, with zeros above (log entry 9). -/
theorem decode_request (c : BitVec 5) (operands : List Byte) :
    decode .opsel (c.setWidth 8 :: operands) = decodeOp c operands := by
  have fits : (c.setWidth 8).toNat < 32 := by
    rw [BitVec.toNat_setWidth_of_le (by decide)]
    exact c.isLt
  have back : (c.setWidth 8).setWidth 5 = c := by simp
  rw [decode, decodeRequest, if_pos fits, back]

/-- A request that decodes begins with its OPSEL in a byte with zeros above (log entry 9). -/
theorem eq_cons_of_decode_opsel {b : List Byte} {i : Instr} (h : decode .opsel b = .ok i) :
    ∃ c operands, b = BitVec.setWidth 8 (c : BitVec 5) :: operands ∧ decodeOp c operands = .ok i := by
  cases b with
  | nil => cases h
  | cons v operands =>
    rw [decode, decodeRequest] at h
    split_ifs at h with fits
    refine ⟨v.setWidth 5, operands, ?_, h⟩
    congr 1
    apply BitVec.eq_of_toNat_eq
    simp; omega

/-- A request's bytes: the OPSEL, then the operands (30_encoding R105). -/
theorem encode_of_opsel {i : Instr} (h : i.format = .opsel) :
    encode i = i.opsel.setWidth 8 :: i.operands := by
  cases i with
  | entryEmpty | entryIFrame | entryPFrame | entryIPFrame | header => cases h
  | _ => rfl

/-! ## The operands of each request (log entry 9) -/

/-- An operation that takes none. -/
theorem noOperands_eq_ok {i j : Instr} {b : List Byte} : noOperands i b = .ok j ↔ b = [] ∧ i = j := by
  unfold noOperands
  split_ifs with h <;> simp [h]

/-- An operation that takes a fixed number of bytes. -/
theorem fixedOperands_eq_ok {n : Nat} {i j : Instr} {b : List Byte} :
    fixedOperands n i b = .ok j ↔ b.length = n ∧ i = j := by
  unfold fixedOperands
  split_ifs with h <;> simp [h]

/-- An operation whose operand is one word. -/
theorem fixedOperands_word_eq_ok {op : Word → Instr} {b : List Byte} {i : Instr} :
    fixedOperands 4 (op (wordOf b)) b = .ok i ↔ ∃ e, i = op e ∧ wordBytes e = b := by
  rw [fixedOperands_eq_ok]
  constructor
  · rintro ⟨hlen, rfl⟩
    exact ⟨_, rfl, wordBytes_wordOf b hlen⟩
  · rintro ⟨e, rfl, rfl⟩
    simp

/-- A type's tag, in a byte of its own. -/
theorem tag_byte {v : Byte} (h : v.toNat < 4) : (FrameType.ofTag (v.setWidth 2)).tag.setWidth 8 = v := by
  rw [FrameType.tag_ofTag]
  apply BitVec.eq_of_toNat_eq
  simp; omega

/-- EPACK's operands are a word and a type's tag. -/
theorem decodeEpack_eq_ok {b : List Byte} {i : Instr} :
    decodeEpack b = .ok i ↔ ∃ o t, i = .epack o t ∧ wordBytes o ++ [t.tag.setWidth 8] = b := by
  constructor
  · intro h
    unfold decodeEpack at h
    split at h
    · next v last =>
      have hlen : (b.take 4).length = 4 := by
        have : (b.drop 4).length = 1 := by rw [last]; rfl
        simp at this ⊢
        omega
      split_ifs at h with low
      cases h
      exact ⟨_, _, rfl, by rw [wordBytes_wordOf _ hlen, tag_byte low, ← last, List.take_append_drop]⟩
    · cases h
  · rintro ⟨o, t, rfl, rfl⟩
    have low : t.tag.toNat % 256 < 4 := by cases t <;> decide
    simp [decodeEpack, low, List.take_left', List.drop_left']

/-- HBUILD's operands are a word, two halves and, where it is not omitted, a third. -/
theorem decodeHbuild_eq_ok {b : List Byte} {i : Instr} :
    decodeHbuild b = .ok i ↔ ∃ r w h n, i = .hbuild r w h n ∧ i.operands = b := by
  constructor
  · intro h
    have geometry (long : 8 ≤ b.length) : wordBytes (wordOf (sliceOf b 0 4)) ++
        halfBytes (halfOf (sliceOf b 4 2)) ++ halfBytes (halfOf (sliceOf b 6 2)) ++ b.drop 8 = b := by
      rw [wordBytes_sliceOf, halfBytes_sliceOf, halfBytes_sliceOf]
      · simp [sliceOf_append_drop]
      all_goals omega
    unfold decodeHbuild at h
    split_ifs at h with omitted given <;> cases h <;> refine ⟨_, _, _, _, rfl, ?_⟩
    · have rest : b.drop 8 = [] := List.drop_eq_nil_of_le omitted.le
      have whole := geometry omitted.ge
      rwa [rest, List.append_nil] at whole
    · have rest : halfBytes (halfOf (sliceOf b 8 2)) = b.drop 8 := by
        rw [halfBytes_sliceOf given.ge]
        exact List.take_of_length_le (by simp [given])
      rw [Instr.operands, rest]
      exact geometry (by omega)
  · rintro ⟨r, w, h, n, rfl, rfl⟩
    cases n <;>
      simp [decodeHbuild, Instr.operands, sliceOf_append_right, sliceOf_append_left, sliceOf_self]

@[simp] theorem wordsOf_flatMap (t : List Word) : wordsOf (t.flatMap wordBytes) = t := by
  induction t with
  | nil => rfl
  | cons w t ih =>
    have back := wordOf_wordBytes w
    rw [List.flatMap_cons]
    simp only [wordBytes, leBytes] at back ⊢
    simp only [List.cons_append, List.nil_append, wordsOf, back]
    rw [ih]

@[simp] theorem flatMap_wordBytes_length (t : List Word) :
    (t.flatMap wordBytes).length = 4 * t.length := by
  simp [List.length_flatMap, mul_comm]

/-- Whole words are written as the bytes they were read from. -/
theorem flatMap_wordsOf {b : List Byte} (h : b.length % 4 = 0) : (wordsOf b).flatMap wordBytes = b := by
  induction b using wordsOf.induct with
  | case1 x y z v rest ih =>
    have whole : rest.length % 4 = 0 := by simp at h; omega
    rw [wordsOf, List.flatMap_cons, wordBytes_wordOf _ rfl, ih whole]
    rfl
  | case2 b short =>
    match b with
    | [] => rfl
    | [_] | [_, _] | [_, _, _] => simp at h
    | x :: y :: z :: v :: rest => exact (short x y z v rest rfl).elim

theorem decodeTvalid_eq_ok {b : List Byte} {i : Instr} :
    decodeTvalid b = .ok i ↔ ∃ t, i = .tvalid t ∧ t.flatMap wordBytes = b := by
  constructor
  · intro h
    unfold decodeTvalid at h
    split_ifs at h with whole
    cases h
    exact ⟨_, rfl, flatMap_wordsOf whole⟩
  · rintro ⟨t, rfl, rfl⟩
    simp [decodeTvalid]

theorem decodeRexp_eq_ok {b : List Byte} {i : Instr} :
    decodeRexp b = .ok i ↔ ∃ v, i = .rexp v ∧ [v] = b := by
  unfold decodeRexp
  split
  · simp [eq_comm]
  · next other =>
    simp only [reduceCtorEq, false_iff]
    rintro ⟨v, _, rfl⟩
    exact other v rfl

theorem decodeRasm_eq_ok {b : List Byte} {i : Instr} :
    decodeRasm b = .ok i ↔ ∃ p w h, i = .rasm p w h ∧ halfBytes w ++ halfBytes h ++ p = b := by
  constructor
  · intro h
    unfold decodeRasm at h
    split_ifs at h with long
    cases h
    refine ⟨_, _, _, rfl, ?_⟩
    rw [halfBytes_sliceOf (by omega), halfBytes_sliceOf (by omega)]
    simp [sliceOf_append_drop]
  · rintro ⟨p, w, h, rfl, rfl⟩
    simp [decodeRasm, sliceOf_append_right, sliceOf_append_left, List.drop_append,
      List.drop_eq_nil_of_le]; omega

theorem decodeRun_eq_ok {b : List Byte} {i : Instr} :
    decodeRun b = .ok i ↔ ∃ m n, i = .run m n ∧ wordBytes n ++ m = b := by
  constructor
  · intro h
    unfold decodeRun at h
    split_ifs at h with long
    cases h
    refine ⟨_, _, rfl, ?_⟩
    rw [wordBytes_wordOf _ (by simpa using long), List.take_append_drop]
  · rintro ⟨m, n, rfl, rfl⟩
    simp [decodeRun, List.take_left', List.drop_left']

/-! ## The OPSEL table (30_encoding R105) -/

/-- A request decodes to the operation of its OPSEL whose operands its bytes are. -/
theorem decodeOp_eq_ok {c : BitVec 5} {b : List Byte} {i : Instr} :
    decodeOp c b = .ok i ↔ i.format = .opsel ∧ i.opsel = c ∧ i.operands = b := by
  constructor
  · intro h
    unfold decodeOp at h
    split at h <;> rename_i code
    · obtain ⟨e, rfl, rfl⟩ := (fixedOperands_word_eq_ok (op := .eoff)).1 h
      exact ⟨rfl, BitVec.eq_of_toNat_eq code.symm, rfl⟩
    · obtain ⟨e, rfl, rfl⟩ := (fixedOperands_word_eq_ok (op := .etype)).1 h
      exact ⟨rfl, BitVec.eq_of_toNat_eq code.symm, rfl⟩
    · obtain ⟨o, t, rfl, rfl⟩ := decodeEpack_eq_ok.1 h
      exact ⟨rfl, BitVec.eq_of_toNat_eq code.symm, rfl⟩
    · cases h
      exact ⟨rfl, BitVec.eq_of_toNat_eq code.symm, rfl⟩
    · obtain ⟨r, w, h, n, rfl, operands⟩ := decodeHbuild_eq_ok.1 h
      exact ⟨rfl, BitVec.eq_of_toNat_eq code.symm, operands⟩
    · obtain ⟨t, rfl, rfl⟩ := decodeTvalid_eq_ok.1 h
      exact ⟨rfl, BitVec.eq_of_toNat_eq code.symm, rfl⟩
    · obtain ⟨v, rfl, rfl⟩ := decodeRexp_eq_ok.1 h
      exact ⟨rfl, BitVec.eq_of_toNat_eq code.symm, rfl⟩
    · obtain ⟨p, w, h, rfl, rfl⟩ := decodeRasm_eq_ok.1 h
      exact ⟨rfl, BitVec.eq_of_toNat_eq code.symm, rfl⟩
    iterate 10
      · obtain ⟨rfl, rfl⟩ := noOperands_eq_ok.1 h
        exact ⟨rfl, BitVec.eq_of_toNat_eq code.symm, rfl⟩
    · obtain ⟨m, n, rfl, rfl⟩ := decodeRun_eq_ok.1 h
      exact ⟨rfl, BitVec.eq_of_toNat_eq code.symm, rfl⟩
    · cases h
  · rintro ⟨request, rfl, rfl⟩
    cases i with
    | entryEmpty | entryIFrame | entryPFrame | entryIPFrame | header => cases request
    | eoff e => exact fixedOperands_word_eq_ok.2 ⟨e, rfl, rfl⟩
    | etype e => exact fixedOperands_word_eq_ok.2 ⟨e, rfl, rfl⟩
    | epack o t => exact decodeEpack_eq_ok.2 ⟨o, t, rfl, rfl⟩
    | hparse b => rfl
    | hbuild r w h n => exact decodeHbuild_eq_ok.2 ⟨r, w, h, n, rfl, rfl⟩
    | tvalid t => exact decodeTvalid_eq_ok.2 ⟨t, rfl, rfl⟩
    | rexp v => exact decodeRexp_eq_ok.2 ⟨v, rfl, rfl⟩
    | rasm p w h => exact decodeRasm_eq_ok.2 ⟨p, w, h, rfl, rfl⟩
    | run m n => exact decodeRun_eq_ok.2 ⟨m, n, rfl, rfl⟩
    | _ => rfl

/-- Every request is well-formed: only a HEADER can carry another magic (30_encoding R92). -/
theorem wellFormed_of_opsel {i : Instr} (h : i.format = .opsel) : i.wellFormed = true := by
  cases i with
  | header => cases h
  | _ => rfl

/-- The errors of operand bytes: none of them names a code as reserved (30_encoding R105, R106). -/
theorem operands_ne_reserved (c : BitVec 5) (b : List Byte) :
    (∀ i, noOperands i b ≠ .error (.reservedOpsel c)) ∧
    (∀ n i, fixedOperands n i b ≠ .error (.reservedOpsel c)) ∧
    decodeEpack b ≠ .error (.reservedOpsel c) ∧ decodeHbuild b ≠ .error (.reservedOpsel c) ∧
    decodeTvalid b ≠ .error (.reservedOpsel c) ∧ decodeRexp b ≠ .error (.reservedOpsel c) ∧
    decodeRasm b ≠ .error (.reservedOpsel c) ∧ decodeRun b ≠ .error (.reservedOpsel c) := by
  refine ⟨fun i => ?_, fun n i => ?_, ?_, ?_, ?_, ?_, ?_, ?_⟩
  · rw [noOperands]; split_ifs <;> simp
  · rw [fixedOperands]; split_ifs <;> simp
  · rw [decodeEpack]
    split
    · split_ifs <;> simp
    · simp
  · rw [decodeHbuild]; split_ifs <;> simp
  · rw [decodeTvalid]; split_ifs <;> simp
  · rw [decodeRexp.eq_def]; split <;> simp
  · rw [decodeRasm]; split_ifs <;> simp
  · rw [decodeRun]; split_ifs <;> simp

/-- The codes the table gives no operation, and no others, are named as reserved (30_encoding R105). -/
theorem decodeOp_eq_reserved {c : BitVec 5} {b : List Byte} :
    decodeOp c b = .error (.reservedOpsel c) ↔
      c.toNat = 0 ∨ (0x09 ≤ c.toNat ∧ c.toNat ≤ 0x10) ∨ (0x1A ≤ c.toNat ∧ c.toNat ≤ 0x1D) := by
  have bound := c.isLt
  obtain ⟨plain, fixed, epack, hbuild, tvalid, rexp, rasm, run⟩ := operands_ne_reserved c b
  unfold decodeOp
  split <;> simp only [plain, fixed, epack, hbuild, tvalid, rexp, rasm, run, reduceCtorEq, eq_self,
    false_iff, true_iff]
  iterate 19
    · omega
  · simp only [imp_false] at *
    omega

/-! ## The statements -/

/-- Settles O53: each format's decoder reads off what its encoder wrote. -/
theorem decodeOfEncode : Obligations.DecodeOfEncode := by
  intro i ok
  cases i with
  | entryEmpty o => exact decode_entry_wordBytes o .empty
  | entryIFrame o => exact decode_entry_wordBytes o .iFrame
  | entryPFrame o => exact decode_entry_wordBytes o .pFrame
  | entryIPFrame o => exact decode_entry_wordBytes o .ipFrame
  | header h =>
    have magic : h.magic = Config.magic := of_decide_eq_true ok
    exact decode_header_eq_ok.2
      ⟨headerBytes_length h, by rw [encode, take_headerBytes, magic], by rw [encode, headerOf_headerBytes]⟩
  | _ => exact (decode_request _ _).trans (decodeOp_eq_ok.2 ⟨rfl, rfl, rfl⟩)

/-- Settles O54: what each format's decoder accepts is what its encoder writes for the answer. -/
theorem encodeOfDecode : Obligations.EncodeOfDecode := by
  intro f b i h
  cases f with
  | entry =>
    obtain ⟨o, t, rfl, rfl⟩ := eq_entryInstr_of_decode h
    exact entryInstr_encode o t
  | header =>
    obtain ⟨hlen, magic, rfl⟩ := decode_header_eq_ok.1 h
    exact ⟨decide_eq_true ((magicOf_eq_iff b _ (by omega)).2 magic), rfl, headerBytes_headerOf hlen⟩
  | opsel =>
    obtain ⟨c, operands, rfl, decoded⟩ := eq_cons_of_decode_opsel h
    obtain ⟨request, rfl, rfl⟩ := decodeOp_eq_ok.1 decoded
    exact ⟨wellFormed_of_opsel request, request, encode_of_opsel request⟩

/-- Settles O52: the table's last row answers the reserved codes by name, and no other row names one. -/
theorem reservedOpselsAreTheTables : Obligations.ReservedOpselsAreTheTables := fun _ _ =>
  decodeOp_eq_reserved

end Sys2Proof
end

section
/-! The laws of the expander (44_raster_expander, section 1). -/

namespace Sys2Proof.Machine

open Sys2Proof.Claim

/-- A raster element is 0 or 1 (44_raster_expander R210). -/
theorem pixel_eq_zero_or_one (p : List Byte) (j : Nat) : pixel p j = 0 ∨ pixel p j = 1 := by
  unfold pixel
  split
  · exact .inr rfl
  · exact .inl rfl

theorem flatMap_rexp_length (p : List Byte) : (p.flatMap rexp).length = 8 * p.length := by
  simp [flatMap_rexp]

/-- A byte's expansion has a one for each bit set: it is the bits in the other order (R211). -/
theorem count_ones_rexp (v : Byte) :
    ((rexp v).filter (· = 1)).length = ((List.range 8).filter fun k => v.getLsbD k).length := by
  have reversed : (List.range 8).map (7 - ·) = (List.range 8).reverse := by decide
  calc ((rexp v).filter (· = 1)).length
    _ = (((List.range 8).map (7 - ·)).filter fun k => v.getLsbD k).length := by
      simp [rexp_eq_map, List.filter_map, Function.comp_def]
    _ = _ := by rw [reversed, List.filter_reverse, List.length_reverse]

/-- Bytes with the same expansion have the same bits (R211). -/
theorem rexp_injective : Function.Injective rexp := by
  intro v u same
  rw [rexp_eq_map, rexp_eq_map, List.map_inj_left] at same
  refine BitVec.eq_of_getLsbD_eq fun k hk => ?_
  have bit := same (7 - k) (by simp; omega)
  rw [show 7 - (7 - k) = k by omega] at bit
  revert bit
  cases v.getLsbD k <;> cases u.getLsbD k <;> simp

/-- The eight elements of byte `j` stand at `8 * j` (R213). -/
theorem take_drop_flatMap_rexp {p : List Byte} {j : Nat} {v : Byte} (h : p[j]? = some v) :
    ((p.flatMap rexp).drop (8 * j)).take 8 = rexp v := by
  obtain ⟨inside, rfl⟩ := List.getElem?_eq_some_iff.1 h
  have front : ((p.take j).flatMap rexp).length = 8 * j := by
    rw [flatMap_rexp_length, List.length_take_of_le inside.le]
  have split : p = p.take j ++ p[j] :: p.drop (j + 1) := by simp
  calc ((p.flatMap rexp).drop (8 * j)).take 8
    _ = (((p.take j).flatMap rexp ++ (rexp p[j] ++ (p.drop (j + 1)).flatMap rexp)).drop (8 * j)).take 8 := by
      conv_lhs => rw [split, List.flatMap_append, List.flatMap_cons]
    _ = rexp p[j] := by rw [List.drop_left' front, List.take_left' (show (rexp p[j]).length = 8 from rfl)]

/-- Payloads of one length with the same expansion are equal, byte by byte. -/
theorem flatMap_rexp_injective {p p' : List Byte} (hlen : p'.length = p.length)
    (same : p.flatMap rexp = p'.flatMap rexp) : p = p' := by
  refine List.ext_getElem hlen.symm fun j hj hj' => rexp_injective ?_
  rw [← take_drop_flatMap_rexp (List.getElem?_eq_getElem hj), same,
    take_drop_flatMap_rexp (List.getElem?_eq_getElem hj')]

/-- RASM of a whole payload is the expansions of its bytes (R212). -/
theorem rasm_eq_flatMap {p : List Byte} {w h : Half} (hlen : p.length = w.toNat * h.toNat / 8) :
    rasm p w h = p.flatMap rexp := by
  rw [rasm, payloadLength, ← hlen, List.take_length]

/-- RASM inside its precondition gives a whole raster (R210, R212). -/
theorem rasm_whole {p : List Byte} {w h : Half} (good : DimsGood w h)
    (hlen : p.length = w.toNat * h.toNat / 8) :
    (rasm p w h).length = w.toNat * h.toNat ∧ ∀ x ∈ rasm p w h, x = 0 ∨ x = 1 := by
  rw [rasm_eq_map_pixel good hlen]
  refine ⟨by simp, fun x hx => ?_⟩
  obtain ⟨j, _, rfl⟩ := List.mem_map.1 hx
  exact pixel_eq_zero_or_one p j

/-- Settles O11: the raster is the expansions of the payload's bytes, and each law is REXP's. -/
theorem rasterLaws : Obligations.RasterLaws := by
  intro p p' w h good hlen hlen'
  obtain ⟨length, values⟩ := rasm_whole good hlen
  have ones : ((rasm p w h).filter (· = 1)).length =
      (p.map fun b => ((List.range 8).filter fun k => b.getLsbD k).length).sum := by
    rw [rasm_eq_flatMap hlen, List.filter_flatMap, List.length_flatMap]
    simp only [count_ones_rexp]
  refine ⟨length, values, ones, fun j v hv => ?_, fun same => flatMap_rexp_injective hlen' ?_⟩
  · rw [rasm_eq_flatMap hlen, take_drop_flatMap_rexp hv]
  · rw [← rasm_eq_flatMap hlen, same, rasm_eq_flatMap (hlen'.trans hlen)]

end Sys2Proof.Machine
end

section
/-! Every step keeps the invariant of reachable states (10_state R46): first what a PHASE after S_HDR holds,
without PHASE, then one lemma for each step operation. -/

namespace Sys2Proof.Machine

open Sys2Proof.Claim

/-! ## The ports, RESET, START and `raise` -/

/-- The invariant says nothing of the host's ports. -/
theorem State.Inv.withPorts {s : State} (inv : s.Inv) (requests : List Request) (answers : List Answer) :
    ({ s with inbox := requests, answers := answers } : State).Inv :=
  { inv with
    idleReset := fun idle => congrArg (fun t : State => { t with inbox := requests, answers := answers })
      (inv.idleReset idle) }

theorem State.Inv.tick {s : State} (inv : s.Inv) : s.tick.Inv := by
  rw [s.tick_eq]
  exact inv.withPorts _ s.answers

theorem State.Inv.takeRequest {s : State} (inv : s.Inv) : s.takeRequest.Inv :=
  inv.withPorts _ s.answers

theorem State.Inv.answer {s : State} (inv : s.Inv) (a : Answer) : (s.answer a).Inv :=
  inv.withPorts s.inbox _

/-- A state with every element at its reset value and OUT empty numbers no record. -/
theorem State.outNumbered_of_nil {s : State} (count : s.framesOut = 0) (empty : s.out = []) :
    s.OutNumbered := by
  refine ⟨by simp [count, empty], fun j r record => ?_⟩
  simp [empty] at record

/-- A whole raster of the held geometry, numbered next and counted, may be appended (10_state R38). -/
theorem State.OutNumbered.append {s t : State} (numbered : s.OutNumbered) {r : OutRecord}
    (out : t.out = s.out ++ [r]) (count : t.framesOut.toNat = s.framesOut.toNat + 1)
    (width : t.hWidth = s.hWidth) (height : t.hHeight = s.hHeight)
    (number : r.frameNo.toNat = s.framesOut.toNat + 1)
    (held : s.hWidth = some r.width ∧ s.hHeight = some r.height ∧
      r.raster.length = r.width.toNat * r.height.toNat ∧ ∀ x ∈ r.raster, x = 0 ∨ x = 1) : t.OutNumbered := by
  obtain ⟨total, records⟩ := numbered
  refine ⟨by simp [count, out, total], fun j q hq => ?_⟩
  rw [width, height]
  rw [out, List.getElem?_append] at hq
  split at hq
  · exact records j q hq
  · next past =>
    obtain ⟨index, rfl⟩ := List.getElem?_eq_some_iff.1 hq
    have last : j = s.out.length := by simp at index; omega
    simp only [last, Nat.sub_self, List.getElem_cons_zero]
    exact ⟨by omega, held⟩

/-- RESET leads to a state that meets the invariant (10_state, section 8). -/
theorem State.inv_toReset {s : State} (canonical : s.StreamCanonical) : s.toReset.Inv where
  headerValid := nofun
  headerHeld := nofun
  noHeader _ := ⟨rfl, rfl, rfl, rfl, rfl, rfl, rfl⟩
  dims := nofun
  tableValid := nofun
  tableHeld := nofun
  noTable _ := ⟨rfl, rfl, rfl⟩
  tableToCome _ := rfl
  terminator := nofun
  index := nofun
  span := nofun
  cbuf := nofun
  pbuf := nofun
  outNumbered := outNumbered_of_nil rfl rfl
  countBefore _ := ⟨rfl, rfl⟩
  countLoop := nofun
  countNext := nofun
  countError := nofun
  countDone := nofun
  errorCode := ⟨nofun, fun h => absurd rfl h⟩
  errorNotPack := nofun
  errorFresh _ := ⟨rfl, rfl⟩
  doneBound := nofun
  idleReset _ := rfl
  canonical := canonical

/-- A session's STREAM is canonical and ends at STREAM_LEN (43_frame_extraction R177). -/
theorem State.streamCanonical_start (s : State) (b : List Byte) (n : Word) :
    (s.start b n).StreamCanonical := by
  refine ⟨Memory.ofBytes_wf 0 _, fun c hc => ?_⟩
  have inside := (Memory.ofBytes_addresses 0 (s.presented b n.toNat) c hc).2
  rwa [State.presented_length, Nat.zero_add] at inside

/-- START leads from IDLE, where every element has its reset value, to a state that meets the invariant. -/
theorem State.Inv.start {s : State} (inv : s.Inv) (idle : s.phase = .idle) (b : List Byte) (n : Word) :
    (s.start b n).Inv := by
  have canonical := s.streamCanonical_start b n
  rw [← inv.idleReset idle] at canonical ⊢
  exact
    { State.inv_toReset inv.canonical with
      canonical := canonical
      span := nofun
      countLoop := nofun
      countNext := nofun
      countError := nofun
      countDone := nofun
      errorCode := ⟨nofun, fun h => absurd rfl h⟩
      errorFresh := fun _ => ⟨rfl, rfl⟩
      doneBound := nofun
      idleReset := nofun
      countBefore := fun _ => ⟨rfl, rfl⟩ }

/-- Until S_EXPAND has counted a frame, FRAMES_OUT is IDX (10_state R36). -/
theorem State.Inv.framesOut_eq_idx {s : State} (inv : s.Inv)
    (raises : s.status = .busy ∧ s.phase ≠ .sNext) : s.framesOut.toNat = s.idx.toNat := by
  obtain ⟨busy, counting⟩ := raises
  have kind : s.phase.inLoop = true ∨ s.phase.beforeLoop = true := by
    revert busy
    rw [State.status]
    cases s.phase <;> decide
  obtain loop | before := kind
  · exact inv.countLoop loop counting
  · obtain ⟨out, index⟩ := inv.countBefore before
    rw [out, index]
    rfl

/-- Raising keeps the invariant: every claim but those of the error record is about another PHASE
(60_exceptions R232, R236). -/
theorem State.Inv.raise {s : State} (inv : s.Inv) (raises : s.status = .busy ∧ s.phase ≠ .sNext)
    {e : ErrCode} (error : e ≠ .none ∧ e ≠ .offsetTooLarge) (index : Option Index) (offset : Nat) :
    (s.raise e index offset).Inv :=
  { inv with
    headerValid := nofun
    dims := nofun
    tableValid := nofun
    tableToCome := nofun
    terminator := nofun
    index := nofun
    span := nofun
    cbuf := nofun
    pbuf := nofun
    countBefore := nofun
    countLoop := nofun
    countNext := nofun
    countError := fun _ => inv.framesOut_eq_idx raises
    countDone := nofun
    errorCode := ⟨fun _ => error.1, fun _ => rfl⟩
    errorNotPack := error.2
    errorFresh := fun h => absurd rfl h
    doneBound := nofun
    idleReset := nofun }

/-! ## What a session holds, without PHASE -/

/-- From S_DIM on: the header is held, the records are numbered and no error is raised. -/
structure State.Opened (s : State) : Prop where
  headerValid : s.hValid = true
  headerHeld : s.HeaderHeld
  outNumbered : s.OutNumbered
  errorFree : s.errCode = .none ∧ s.errIndex = none ∧ s.errOffset = 0
  canonical : s.StreamCanonical

/-- From S_TVALID on: the payload length and the table are held besides. -/
structure State.Tabled (s : State) : Prop extends s.Opened where
  dimsHeld : s.DimsHeld
  tableSet : s.tValid = true
  entriesHeld : s.TableHeld

/-- From S_SPAN to S_NEXT: the terminator is checked and IDX stands before it besides. -/
structure State.Looping (s : State) : Prop extends s.Tabled where
  terminated : tvalid s.table = true
  beforeLast : s.idx.toNat + 2 ≤ s.table.length

/-- T_LEN counts the held words (10_state R28). -/
theorem State.TableHeld.tLen_toNat {s : State} (held : s.TableHeld) {n : Index} (hn : s.tLen = some n) :
    n.toNat = s.table.length := by
  obtain ⟨m, -, length, tLen, -⟩ := held
  rw [tLen] at hn
  cases hn
  rw [length, BitVec.toNat_ofNat]
  omega

theorem State.TableHeld.length_pos {s : State} (held : s.TableHeld) : 0 < s.table.length := by
  obtain ⟨m, -, length, -⟩ := held
  omega

/-- IDX fits in the 16 bits of a record's number, and the next number too. -/
theorem State.Looping.idx_lt {s : State} (looping : s.Looping) : s.idx.toNat + 1 < 2 ^ 16 := by
  have before := looping.beforeLast
  obtain ⟨m, -, length, -⟩ := looping.entriesHeld
  omega

theorem State.Inv.opened {s : State} (inv : s.Inv) (phase : s.phase.afterHeader = true) : s.Opened := by
  have valid := inv.headerValid phase
  have calm : s.phase ≠ .error := by
    intro h
    simp [h, Phase.afterHeader] at phase
  exact ⟨valid, inv.headerHeld valid, inv.outNumbered,
    ⟨not_not.1 (mt inv.errorCode.2 calm), inv.errorFresh calm⟩, inv.canonical⟩

theorem State.Inv.tabled {s : State} (inv : s.Inv) (phase : s.phase.afterTable = true) : s.Tabled := by
  have later : s.phase.afterHeader = true ∧ s.phase.afterDim = true := by
    revert phase
    cases s.phase <;> decide
  have valid := inv.tableValid phase
  exact ⟨inv.opened later.1, inv.dims later.2, valid, inv.tableHeld valid⟩

theorem State.Inv.looping {s : State} (inv : s.Inv) (phase : s.phase.inLoop = true) : s.Looping := by
  have later : s.phase.afterTable = true ∧ s.phase.afterTerminator = true := by
    revert phase
    cases s.phase <;> decide
  exact ⟨inv.tabled later.1, inv.terminator later.2, inv.index phase⟩

/-- What the invariant claims of a PHASE from S_DIM on beside `Opened`. Where PHASE is a constructor, the default
proof `nofun` closes each claim about other PHASEs. -/
structure State.Stage (s : State) : Prop extends s.Opened where
  phase : s.phase.afterHeader = true := by rfl
  dims : s.phase.afterDim = true → s.DimsHeld := by nofun
  tableValid : s.phase.afterTable = true → s.tValid = true := by nofun
  tableHeld : s.tValid = true → s.TableHeld
  noTable : s.tValid = false → s.NoTable
  tableToCome : s.phase.beforeTable = true → s.tValid = false := by nofun
  terminator : s.phase.afterTerminator = true → tvalid s.table = true := by nofun
  index : s.phase.inLoop = true → s.idx.toNat + 2 ≤ s.table.length := by nofun
  span : s.phase.afterSpan = true → s.SpanHeld := by nofun
  cbuf : s.phase.afterFetch = true → s.CbufHeld := by nofun
  pbuf : s.phase.afterInflate = true → s.PbufHeld := by nofun
  countBefore : s.phase.beforeLoop = true → s.framesOut = 0 ∧ s.idx = 0 := by nofun
  countLoop : s.phase.inLoop = true → s.phase ≠ .sNext → s.framesOut.toNat = s.idx.toNat := by nofun
  countNext : s.phase = .sNext → s.framesOut.toNat = s.idx.toNat + 1 := by nofun
  countDone : s.phase = .done → s.framesOut = 0 ∨ s.framesOut.toNat = s.idx.toNat + 1 := by nofun
  doneBound : s.phase = .done → ∃ n, s.hNumFrames = some n ∧ s.framesOut.toNat ≤ n.toNat := by nofun

theorem State.Stage.inv {s : State} (stage : s.Stage) : s.Inv := by
  have apart : s.phase ≠ .error ∧ s.phase ≠ .idle := by
    have phase := stage.phase
    revert phase
    cases s.phase <;> decide
  obtain ⟨calm, busy⟩ := apart
  obtain ⟨noError, fresh⟩ := stage.errorFree
  exact
    { stage with
      headerValid := fun _ => stage.headerValid
      headerHeld := fun _ => stage.headerHeld
      noHeader := fun h => absurd stage.headerValid (by simp [h])
      countError := fun h => absurd h calm
      errorCode := ⟨fun h => absurd h calm, fun h => absurd noError h⟩
      errorNotPack := by simp [noError]
      errorFresh := fun _ => fresh
      idleReset := fun h => absurd h busy }

/-- The loop's PHASEs differ in the frame's own registers and in the count alone. -/
theorem State.Looping.inv {s : State} (looping : s.Looping) (phase : s.phase.inLoop = true)
    (span : s.phase.afterSpan = true → s.SpanHeld := by nofun)
    (cbuf : s.phase.afterFetch = true → s.CbufHeld := by nofun)
    (pbuf : s.phase.afterInflate = true → s.PbufHeld := by nofun)
    (countLoop : s.phase ≠ .sNext → s.framesOut.toNat = s.idx.toNat)
    (countNext : s.phase = .sNext → s.framesOut.toNat = s.idx.toNat + 1 := by nofun) : s.Inv := by
  have apart : s.phase.afterHeader = true ∧ s.phase.beforeTable = false ∧ s.phase.beforeLoop = false ∧
      s.phase ≠ .done := by
    revert phase
    cases s.phase <;> decide
  obtain ⟨opened, tableRead, begun, running⟩ := apart
  exact State.Stage.inv
    { looping with
      phase := opened
      dims := fun _ => looping.dimsHeld
      tableValid := fun _ => looping.tableSet
      tableHeld := fun _ => looping.entriesHeld
      noTable := fun h => absurd looping.tableSet (by simp [h])
      tableToCome := by simp [tableRead]
      terminator := fun _ => looping.terminated
      index := fun _ => looping.beforeLast
      span := span
      cbuf := cbuf
      pbuf := pbuf
      countBefore := by simp [begun]
      countLoop := fun _ => countLoop
      countNext := countNext
      countDone := fun h => absurd h running
      doneBound := fun h => absurd h running }

/-! ## The step operations -/

section
variable {s t : State} (inv : s.Inv)
include inv

/-- S_HDR latches a header, or raises (41_header_codec R150, R151). -/
theorem State.Inv.of_execSHdr (phase : s.phase = .sHdr) (h : execSHdr s = .next t) : t.Inv := by
  have raises : s.status = .busy ∧ s.phase ≠ .sNext := by rw [State.status, phase]; decide
  have invalid : s.tValid = false := inv.tableToCome (by rw [phase]; rfl)
  have count := inv.countBefore (by rw [phase]; rfl)
  have calm : s.phase ≠ .error := by simp [phase]
  have empty : s.out = [] := by
    have length := inv.outNumbered.1
    rw [count.1] at length
    exact List.eq_nil_of_length_eq_zero length.symm
  obtain ⟨_, rfl⟩ | ⟨_, rfl⟩ | ⟨_, _, _, rfl⟩ | ⟨b, read, magic, rfl⟩ := execSHdr_cases h
  · exact inv
  · exact inv.raise raises (by decide) _ _
  · exact inv.raise raises (by decide) _ _
  · have hlen := State.memRead_bytes_length read
    exact State.Stage.inv
      { headerValid := rfl
        headerHeld := ⟨headerOf b, (magicOf_eq_iff b _ (by omega)).2 magic, rfl, rfl, rfl, rfl, rfl, rfl, rfl⟩
        outNumbered := State.outNumbered_of_nil count.1 empty
        errorFree := ⟨not_not.1 (mt inv.errorCode.2 calm), inv.errorFresh calm⟩
        canonical := inv.canonical
        tableHeld := by simp [invalid]
        noTable := inv.noTable
        tableToCome := fun _ => invalid
        countBefore := fun _ => count }

/-- S_DIM holds the payload length, or raises (41_header_codec R152). -/
theorem State.Inv.of_execSDim (phase : s.phase = .sDim) (h : execSDim s = .next t) : t.Inv := by
  have raises : s.status = .busy ∧ s.phase ≠ .sNext := by rw [State.status, phase]; decide
  have opened := inv.opened (by rw [phase]; rfl)
  have invalid : s.tValid = false := inv.tableToCome (by rw [phase]; rfl)
  have count := inv.countBefore (by rw [phase]; rfl)
  obtain ⟨w, v, hw, hv, ⟨good, rfl⟩ | ⟨_, rfl⟩⟩ := execSDim_cases h
  · exact State.Stage.inv
      { opened with
        dims := fun _ => ⟨w, v, hw, hv, good, rfl⟩
        tableHeld := inv.tableHeld
        noTable := inv.noTable
        tableToCome := fun _ => invalid
        countBefore := fun _ => count }
  · exact inv.raise raises (by decide) _ _

/-- S_TREAD holds the table, or raises (42_frame_table R161, R162). -/
theorem State.Inv.of_execSTread (phase : s.phase = .sTread) (h : execSTread s = .next t) : t.Inv := by
  have raises : s.status = .busy ∧ s.phase ≠ .sNext := by rw [State.status, phase]; decide
  have opened := inv.opened (by rw [phase]; rfl)
  have dims := inv.dims (by rw [phase]; rfl)
  have count := inv.countBefore (by rw [phase]; rfl)
  obtain ⟨n, hn, ⟨_, rfl⟩ | ⟨_, _, rfl⟩ | ⟨ws, read, rfl⟩⟩ := execSTread_cases h
  · exact inv
  · exact inv.raise raises (by decide) _ _
  · have length := (State.readEntries_eq_words.1 read).1
    exact State.Stage.inv
      { opened with
        dims := fun _ => dims
        tableValid := fun _ => rfl
        tableHeld := fun _ => ⟨n, hn, length, rfl, rfl⟩
        noTable := nofun
        countBefore := fun _ => count }

/-- S_TVALID goes to the loop or to DONE with a checked terminator, or raises (42_frame_table R164). -/
theorem State.Inv.of_execSTvalid (phase : s.phase = .sTvalid) (h : execSTvalid s = .next t) : t.Inv := by
  have raises : s.status = .busy ∧ s.phase ≠ .sNext := by rw [State.status, phase]; decide
  have tabled := inv.tabled (by rw [phase]; rfl)
  have count := inv.countBefore (by rw [phase]; rfl)
  obtain ⟨n, hn, _, rfl⟩ := execSTvalid_cases h
  have entries := tabled.entriesHeld.tLen_toNat hn
  rw [entries, List.take_length]
  obtain ⟨valid, one, out⟩ | ⟨valid, many, out⟩ | ⟨_, out⟩ := s.checkTerminator_cases (tvalid s.table) n <;>
    rw [out]
  · obtain ⟨m, hm, -⟩ := tabled.entriesHeld
    exact State.Stage.inv
      { tabled with
        dims := fun _ => tabled.dimsHeld
        tableValid := fun _ => tabled.tableSet
        tableHeld := fun _ => tabled.entriesHeld
        noTable := inv.noTable
        terminator := fun _ => valid
        countDone := fun _ => .inl count.1
        doneBound := fun _ => ⟨m, hm, by simp [count.1]⟩ }
  · have pos := tabled.entriesHeld.length_pos
    have looping : State.Looping { s with phase := .sSpan } :=
      { tabled with
        terminated := valid
        beforeLast := by simp [count.2]; omega }
    exact looping.inv rfl (countLoop := fun _ => by simp [count])
  · exact inv.raise raises (by decide) _ _

/-- S_SPAN resolves the frame's span, or raises (43_frame_extraction R179 to R181). -/
theorem State.Inv.of_execSSpan (phase : s.phase = .sSpan) (h : execSSpan s = .next t) : t.Inv := by
  have raises : s.status = .busy ∧ s.phase ≠ .sNext := by rw [State.status, phase]; decide
  have looping := inv.looping (by rw [phase]; rfl)
  have count := inv.framesOut_eq_idx raises
  obtain ⟨d, e, e', hd, he, he', rfl⟩ := execSSpan_cases h
  obtain ⟨_, out⟩ | ⟨ordered, inside, out⟩ := s.resolveSpan_cases d (eoff e) (eoff e') <;> rw [out]
  · exact inv.raise raises (by decide) _ _
  · have bound := s.streamLen.isLt
    have next : State.Looping { s with
        spanStart := some (BitVec.ofNat 32 (d.toNat + (eoff e).toNat))
        spanEnd := some (BitVec.ofNat 32 (d.toNat + (eoff e').toNat)), phase := .sFetch } :=
      { looping with }
    exact next.inv rfl (countLoop := fun _ => count)
      (span := fun _ => ⟨d, e, e', _, _, hd, he, he', rfl, rfl, by simp; omega⟩)

/-- S_FETCH holds the span's bytes, or raises (43_frame_extraction R182). -/
theorem State.Inv.of_execSFetch (phase : s.phase = .sFetch) (h : execSFetch s = .next t) : t.Inv := by
  have raises : s.status = .busy ∧ s.phase ≠ .sNext := by rw [State.status, phase]; decide
  have looping := inv.looping (by rw [phase]; rfl)
  have count := inv.framesOut_eq_idx raises
  obtain ⟨a, z, ha, hz, _, ⟨_, rfl⟩ | ⟨_, rfl⟩ | ⟨b, read, rfl⟩⟩ := execSFetch_cases h
  · exact inv
  · exact inv.raise raises (by decide) _ _
  · have next : State.Looping { s with cbuf := some b, cursor := z, phase := .sInfl } := { looping with }
    exact next.inv rfl (countLoop := fun _ => count)
      (span := fun _ => inv.span (by rw [phase]; rfl))
      (cbuf := fun _ => ⟨b, a, z, rfl, ha, hz, State.memRead_bytes_length read⟩)

/-- S_INFL holds a payload of PLEN bytes, or raises (43_frame_extraction R183, R184). -/
theorem State.Inv.of_execSInfl (phase : s.phase = .sInfl) (h : execSInfl s = .next t) : t.Inv := by
  have raises : s.status = .busy ∧ s.phase ≠ .sNext := by rw [State.status, phase]; decide
  have looping := inv.looping (by rw [phase]; rfl)
  have count := inv.framesOut_eq_idx raises
  obtain ⟨c, _, ⟨_, rfl⟩ | ⟨_, _, _, rfl⟩ | ⟨p, n, _, hn, whole, rfl⟩⟩ := execSInfl_cases h
  · exact inv
  · exact inv.raise raises (by decide) _ _
  · have next : State.Looping { s with pbuf := some p, phase := .sExpand } := { looping with }
    exact next.inv rfl (countLoop := fun _ => count)
      (span := fun _ => inv.span (by rw [phase]; rfl))
      (cbuf := fun _ => inv.cbuf (by rw [phase]; rfl))
      (pbuf := fun _ => ⟨p, n, rfl, hn, whole⟩)

/-- S_EXPAND emits the frame's record and counts it (43_frame_extraction R185). -/
theorem State.Inv.of_execSExpand (phase : s.phase = .sExpand) (h : execSExpand s = .next t) : t.Inv := by
  have raises : s.status = .busy ∧ s.phase ≠ .sNext := by rw [State.status, phase]; decide
  have looping := inv.looping (by rw [phase]; rfl)
  have count := inv.framesOut_eq_idx raises
  have room := looping.idx_lt
  obtain ⟨p, w, v, hp, hw, hv, domain, rfl⟩ := execSExpand_cases h
  obtain ⟨good, whole⟩ := (rasmDomain_iff p w v).1 domain
  have counted : (s.framesOut + 1).toNat = s.idx.toNat + 1 := by
    rw [BitVec.toNat_add, count]
    simp; omega
  have next : State.Looping { s with
      raster := some (rasm p w v)
      out := s.out ++ [⟨BitVec.ofNat 16 (s.idx.toNat + 1), w, v, rasm p w v⟩]
      framesOut := s.framesOut + 1, phase := .sNext } :=
    { looping with
      outNumbered := looping.outNumbered.append rfl (by rw [counted, count]) rfl rfl
        (by rw [count, BitVec.toNat_ofNat, Nat.mod_eq_of_lt room])
        ⟨hw, hv, rasm_whole good whole⟩ }
  exact next.inv rfl (countLoop := fun h => absurd rfl h) (countNext := fun _ => counted)
    (span := fun _ => inv.span (by rw [phase]; rfl))
    (cbuf := fun _ => inv.cbuf (by rw [phase]; rfl))
    (pbuf := fun _ => inv.pbuf (by rw [phase]; rfl))

/-- S_NEXT goes on to the next frame, or to DONE (43_frame_extraction R187). -/
theorem State.Inv.of_execSNext (phase : s.phase = .sNext) (h : execSNext s = .next t) : t.Inv := by
  have looping := inv.looping (by rw [phase]; rfl)
  have count := inv.countNext phase
  have room := looping.idx_lt
  have bound := looping.beforeLast
  obtain ⟨e, n, _, hn, rfl⟩ := execSNext_cases h
  have entries := looping.entriesHeld.tLen_toNat hn
  obtain ⟨_, out⟩ | ⟨_, inner, out⟩ := s.advance_cases (etype e) n <;> rw [out]
  · obtain ⟨m, hm, length, -⟩ := looping.entriesHeld
    exact State.Stage.inv
      { looping with
        dims := fun _ => looping.dimsHeld
        tableValid := fun _ => looping.tableSet
        tableHeld := fun _ => looping.entriesHeld
        noTable := inv.noTable
        terminator := fun _ => looping.terminated
        countDone := fun _ => .inr count
        doneBound := fun _ => ⟨m, hm, by simp [count]; omega⟩ }
  · have moved : (s.idx + 1).toNat = s.idx.toNat + 1 := by
      rw [BitVec.toNat_add]
      simp; omega
    have next : State.Looping { s with idx := s.idx + 1, phase := .sSpan } :=
      { looping with
        beforeLast := by simp only [moved]; omega }
    exact next.inv rfl (countLoop := fun _ => count.trans moved.symm)

end

/-! ## The statements -/

/-- Settles O43: the host's turn is an answer, RESET or START; the sequencer's is its PHASE's step. -/
theorem everyStepKeepsInv : Obligations.EveryStepKeepsInv := by
  intro s t inv h
  obtain ⟨r, _, out⟩ | ⟨i, _, _, hi, out⟩ | ⟨_, _, out⟩ := step_cases s <;> rw [out] at h
  · have taken := inv.takeRequest
    obtain ⟨a, out⟩ | ⟨_, out⟩ | ⟨b, n, _, idle, out⟩ := serve_cases r s.takeRequest <;>
      cases out.symm.trans h
    · exact taken.answer a
    · exact State.inv_toReset inv.canonical
    · exact taken.start idle b n
  · have ticked := inv.tick
    rw [← s.tick_phase] at hi
    obtain ⟨phase, rfl⟩ | ⟨phase, rfl⟩ | ⟨phase, rfl⟩ | ⟨phase, rfl⟩ | ⟨phase, rfl⟩ | ⟨phase, rfl⟩ | ⟨phase, rfl⟩ |
      ⟨phase, rfl⟩ | ⟨phase, rfl⟩ := Phase.stepInstr_cases hi
    · exact ticked.of_execSHdr phase h
    · exact ticked.of_execSDim phase h
    · exact ticked.of_execSTread phase h
    · exact ticked.of_execSTvalid phase h
    · exact ticked.of_execSSpan phase h
    · exact ticked.of_execSFetch phase h
    · exact ticked.of_execSInfl phase h
    · exact ticked.of_execSExpand phase h
    · exact ticked.of_execSNext phase h
  · cases h
    exact inv.tick

/-- Settles O44: the state after reset is what RESET leads to. -/
theorem resetMeetsInv : Obligations.ResetMeetsInv :=
  State.inv_toReset (s := State.reset) ⟨rfl, nofun⟩

end Sys2Proof.Machine
end

section
/-! Reads and Inflate requests that are never answered (70_reset_and_hazards R273, 93 U12). -/

namespace Sys2Proof.Machine

open Sys2Proof.Claim

/-! ## What a step does with a request that is never answered -/

theorem exec_sHdr_of_never {s : State} (h : s.memRead 0 28 = .never) : exec .sHdr s = .next s := by
  rw [exec, execSHdr, Config.headerSize, h]

theorem exec_sTread_of_never {s : State} {n : Half} (hn : s.hNumFrames = some n)
    (h : s.readEntries (n.toNat + 1) 0 = .never) : exec .sTread s = .next s := by
  rw [exec, execSTread, needValue_of hn, h]

theorem exec_sFetch_of_never {s : State} {a z : Word} (ha : s.spanStart = some a) (hz : s.spanEnd = some z)
    (hle : a.toNat ≤ z.toNat) (h : s.memRead a.toNat (z.toNat - a.toNat) = .never) :
    exec .sFetch s = .next s := by
  rw [exec, execSFetch, needValue_of ha, needValue_of hz, if_neg hle.not_gt, h]

theorem exec_sInfl_of_never {s : State} {c : List Byte} (hc : s.cbuf = some c) (h : s.askInflate c = .never) :
    exec .sInfl s = .next s := by
  rw [exec, execSInfl, needValue_of hc, h]

/-! ## Where a request is never answered -/

/-- The Inflate oracle is silent only where the state lists the input so (93 U12). -/
theorem State.askInflate_eq_never {s : State} {c : List Byte} :
    s.askInflate c = .never ↔ s.inflateAnswers.lookup c = some .never := by
  unfold State.askInflate
  cases s.inflateAnswers.lookup c with
  | some a => simp
  | none => cases Config.inflate c <;> simp

/-- The table read is never answered where the first entry that is not read is not answered. -/
theorem readEntries_of_never {s : State} {n j : Nat} (hj : j < n)
    (before : ∀ k, k < j → ∃ b, s.memRead (28 + 4 * k) 4 = .bytes b)
    (never : s.memRead (28 + 4 * j) 4 = .never) : s.readEntries n 0 = .never := by
  cases h : s.readEntries n 0 with
  | never => rfl
  | words ws =>
    obtain ⟨b, read, _⟩ := (State.readEntries_eq_words.1 h).2 j hj
    simp [never] at read
  | failed m =>
    obtain ⟨k, _, _, failed, read⟩ := State.readEntries_eq_failed.1 h
    rw [Nat.zero_add] at failed
    obtain before_k | rfl | after_k := Nat.lt_trichotomy k j
    · obtain ⟨b, read⟩ := before k before_k
      simp [read] at failed
    · simp [never] at failed
    · obtain ⟨b, read⟩ := read j after_k
      simp [never] at read

/-- Settles O49: the one request that each of the four steps makes is not answered, and the step is not
completed. -/
theorem unansweredRequestLeavesSessionBusy : Obligations.UnansweredRequestLeavesSessionBusy := by
  refine ⟨fun s inside listed => ?_, fun s n j hn hj before inside listed => ?_,
    fun s a z ha hz ordered inside listed => ?_, fun s c hc listed => ?_⟩
  · exact exec_sHdr_of_never (State.memRead_eq_never.2 ⟨inside, listed⟩)
  · exact exec_sTread_of_never hn (readEntries_of_never (Nat.lt_succ_of_le hj)
      (fun k hk => ⟨_, (before k hk).memRead_eq_bytes⟩) (State.memRead_eq_never.2 ⟨inside, listed⟩))
  · exact exec_sFetch_of_never ha hz ordered (State.memRead_eq_never.2 ⟨by omega, listed⟩)
  · exact exec_sInfl_of_never hc (State.askInflate_eq_never.2 listed)

/-! ## Where every request is answered -/

section
variable {s : State} (answering : s.Answering)
include answering

theorem State.Answering.memRead_ne_never (a n : Nat) : s.memRead a n ≠ .never := by
  intro h
  obtain ⟨_, _, listed, _⟩ := List.lookup_eq_some_iff.1 (State.memRead_eq_never.1 h).2
  exact answering.1 _ (listed ▸ List.mem_append_cons_self) rfl

theorem State.Answering.askInflate_ne_never (c : List Byte) : s.askInflate c ≠ .never := by
  intro h
  obtain ⟨_, _, listed, _⟩ := List.lookup_eq_some_iff.1 (State.askInflate_eq_never.1 h)
  exact answering.2 _ (listed ▸ List.mem_append_cons_self) rfl

theorem State.Answering.readEntries_ne_never (count j : Nat) : s.readEntries count j ≠ .never := by
  induction count generalizing j with
  | zero => simp [State.readEntries]
  | succ count ih =>
    rw [State.readEntries]
    split
    · next h => exact absurd h (answering.memRead_ne_never _ _)
    · simp
    · split
      · simp
      · simp
      · next h => exact absurd h (ih _)

/-- A step operation whose requests are answered completes, and leads to another PHASE. -/
theorem State.Answering.next_ne {t : State} {i : Instr} (hi : s.phase.stepInstr = some i)
    (h : exec i s = .next t) : t ≠ s := by
  intro same
  have stays : t.phase = s.phase := congrArg State.phase same
  obtain ⟨phase, rfl⟩ | ⟨phase, rfl⟩ | ⟨phase, rfl⟩ | ⟨phase, rfl⟩ | ⟨phase, rfl⟩ | ⟨phase, rfl⟩ | ⟨phase, rfl⟩ |
    ⟨phase, rfl⟩ | ⟨phase, rfl⟩ := Phase.stepInstr_cases hi <;> rw [phase] at stays
  · obtain ⟨never, _⟩ | ⟨_, rfl⟩ | ⟨_, _, _, rfl⟩ | ⟨_, _, _, rfl⟩ := execSHdr_cases h
    · exact answering.memRead_ne_never _ _ never
    all_goals cases stays
  · obtain ⟨_, _, _, _, ⟨_, rfl⟩ | ⟨_, rfl⟩⟩ := execSDim_cases h <;> cases stays
  · obtain ⟨_, _, ⟨never, _⟩ | ⟨_, _, rfl⟩ | ⟨_, _, rfl⟩⟩ := execSTread_cases h
    · exact answering.readEntries_ne_never _ _ never
    all_goals cases stays
  · obtain ⟨n, _, _, rfl⟩ := execSTvalid_cases h
    obtain ⟨_, _, out⟩ | ⟨_, _, out⟩ | ⟨_, out⟩ := s.checkTerminator_cases (tvalid (s.table.take n.toNat)) n <;>
      rw [out] at stays <;> cases stays
  · obtain ⟨d, e, e', _, _, _, rfl⟩ := execSSpan_cases h
    obtain ⟨_, out⟩ | ⟨_, _, out⟩ := s.resolveSpan_cases d (eoff e) (eoff e') <;>
      rw [out] at stays <;> cases stays
  · obtain ⟨_, _, _, _, _, ⟨never, _⟩ | ⟨_, rfl⟩ | ⟨_, _, rfl⟩⟩ := execSFetch_cases h
    · exact answering.memRead_ne_never _ _ never
    all_goals cases stays
  · obtain ⟨_, _, ⟨never, _⟩ | ⟨_, _, _, rfl⟩ | ⟨_, _, _, _, _, rfl⟩⟩ := execSInfl_cases h
    · exact answering.askInflate_ne_never _ never
    all_goals cases stays
  · obtain ⟨_, _, _, _, _, _, _, rfl⟩ := execSExpand_cases h
    cases stays
  · obtain ⟨e, n, _, _, rfl⟩ := execSNext_cases h
    obtain ⟨_, out⟩ | ⟨_, _, out⟩ := s.advance_cases (etype e) n <;> rw [out] at stays <;> cases stays

end

end Sys2Proof.Machine
end

section
/-! No reachable step stops (93_implementation_defined U8), and a run that is answered and not disturbed ends
(43_frame_extraction R189). -/

namespace Sys2Proof.Machine

open Sys2Proof.Claim

/-! ## Progress -/

/-- The payload held in PBUF is RASM's (44_raster_expander R212). -/
theorem State.DimsHeld.rasmDomain {s : State} (dims : s.DimsHeld) (payload : s.PbufHeld) :
    ∃ p w h, s.pbuf = some p ∧ s.hWidth = some w ∧ s.hHeight = some h ∧ rasmDomain p w h = true := by
  obtain ⟨w, h, hw, hh, good, plen⟩ := dims
  obtain ⟨p, n, hp, hn, whole⟩ := payload
  rw [plen] at hn
  cases hn
  have good' := (dimOk_iff w h).1 good
  refine ⟨p, w, h, hp, hw, hh, (rasmDomain_iff p w h).2 ⟨good', ?_⟩⟩
  have size := eight_mul_payloadLength good'
  omega

/-- Where the invariant holds, the step operation of PHASE has a next state: every element it reads holds a
value. -/
theorem State.Inv.exec_stepInstr {s : State} (inv : s.Inv) {i : Instr} (hi : s.phase.stepInstr = some i) :
    ∃ t, exec i s = .next t := by
  obtain ⟨phase, rfl⟩ | ⟨phase, rfl⟩ | ⟨phase, rfl⟩ | ⟨phase, rfl⟩ | ⟨phase, rfl⟩ | ⟨phase, rfl⟩ | ⟨phase, rfl⟩ |
    ⟨phase, rfl⟩ | ⟨phase, rfl⟩ := Phase.stepInstr_cases hi
  · exact ⟨_, rfl⟩
  · obtain ⟨h, -, -, -, -, -, -, hw, hh⟩ := (inv.opened (by rw [phase]; rfl)).headerHeld
    exact ⟨_, exec_sDim hw hh⟩
  · obtain ⟨h, -, -, -, hn, -⟩ := (inv.opened (by rw [phase]; rfl)).headerHeld
    exact ⟨_, needValue_of hn⟩
  · have entries := (inv.tabled (by rw [phase]; rfl)).entriesHeld
    obtain ⟨n, hn⟩ : ∃ n, s.tLen = some n := by
      obtain ⟨_, _, _, hn, _⟩ := entries
      exact ⟨_, hn⟩
    exact ⟨_, exec_sTvalid hn (entries.tLen_toNat hn).le⟩
  · have looping := inv.looping (by rw [phase]; rfl)
    have before := looping.beforeLast
    obtain ⟨n, -, -, -, hd⟩ := looping.entriesHeld
    exact ⟨_, exec_sSpan hd (List.getElem?_eq_getElem (by omega)) (List.getElem?_eq_getElem (by omega))⟩
  · obtain ⟨_, _, _, a, z, -, -, -, ha, hz, -, -, ordered, -⟩ := inv.span (by rw [phase]; rfl)
    exact ⟨_, ((needValue_of ha).trans (needValue_of hz)).trans (if_neg ordered.not_gt)⟩
  · obtain ⟨c, a, _, hc, ha, -⟩ := inv.cbuf (by rw [phase]; rfl)
    obtain ⟨_, _, _, _, _, hn⟩ := inv.dims (by rw [phase]; rfl)
    cases answer : s.askInflate c with
    | never => exact ⟨_, exec_sInfl_of_never hc answer⟩
    | fail => exact ⟨_, (exec_sInfl_of_fail hc answer).trans (raiseAtSpan_of ha _)⟩
    | ok p =>
      rw [exec_sInfl_of_ok hc answer hn, raiseAtSpan_of ha]
      split_ifs <;> exact ⟨_, rfl⟩
  · obtain ⟨p, w, h, hp, hw, hh, domain⟩ :=
      (inv.dims (by rw [phase]; rfl)).rasmDomain (inv.pbuf (by rw [phase]; rfl))
    exact ⟨_, exec_sExpand hp hw hh domain⟩
  · have looping := inv.looping (by rw [phase]; rfl)
    have before := looping.beforeLast
    obtain ⟨n, -, -, hn, -⟩ := looping.entriesHeld
    exact ⟨_, exec_sNext (List.getElem?_eq_getElem (by omega)) hn⟩

/-- Settles O45: the host's turn always completes, and the sequencer's reads no element without a value. -/
theorem noReachableStepStops : Obligations.NoReachableStepStops := by
  intro s inv
  obtain ⟨r, _, out⟩ | ⟨i, _, _, hi, out⟩ | ⟨_, _, out⟩ := step_cases s <;> rw [out]
  · obtain ⟨_, out⟩ | ⟨_, out⟩ | ⟨_, _, _, _, out⟩ := serve_cases r s.takeRequest <;> exact ⟨_, out⟩
  · exact inv.tick.exec_stepInstr (by rwa [s.tick_phase])
  · exact ⟨_, rfl⟩

/-! ## Termination -/

/-- Nothing comes between the steps of a session. -/
structure State.Undisturbed (s : State) : Prop where
  inbox : s.inbox = []
  answering : s.Answering
  process : s.emptyFirst = .process

/-- An undisturbed step from a PHASE with a step operation is that operation, and it completes. -/
theorem State.Undisturbed.step {s : State} (quiet : s.Undisturbed) (inv : s.Inv) {i : Instr}
    (hi : s.phase.stepInstr = some i) : ∃ t, step s = .next t ∧ exec i s = .next t := by
  obtain ⟨t, out⟩ := inv.exec_stepInstr hi
  refine ⟨t, ?_, out⟩
  rw [step_of_phase (s.dueRequest_of_inbox_nil quiet.inbox) (State.heldBack_of_process quiet.process) hi,
    s.tick_of_inbox_nil quiet.inbox, out]

/-- The number of frames the held header counts, 0 where none is held. -/
def State.frames (s : State) : Nat := (s.hNumFrames.map (·.toNat)).getD 0

/-- How many steps a session with a held header still takes at most: five for each frame to come. -/
def State.stepsLeft (s : State) : Nat :=
  match s.phase with
  | .sDim => 5 * s.frames + 3
  | .sTread => 5 * s.frames + 2
  | .sTvalid => 5 * s.frames + 1
  | .sSpan => 5 * (s.frames - s.idx.toNat)
  | .sFetch => 5 * (s.frames - s.idx.toNat) - 1
  | .sInfl => 5 * (s.frames - s.idx.toNat) - 2
  | .sExpand => 5 * (s.frames - s.idx.toNat) - 3
  | .sNext => 5 * (s.frames - s.idx.toNat) - 4
  | .idle | .sHdr | .done | .error => 0

/-- In the loop IDX is the number of a frame (10_state R46 item 5). -/
theorem State.Inv.idx_lt_frames {s : State} (inv : s.Inv) (phase : s.phase.inLoop = true) :
    s.idx.toNat < s.frames ∧ s.idx.toNat + 1 < 2 ^ 16 := by
  have looping := inv.looping phase
  have before := looping.beforeLast
  obtain ⟨n, hn, length, -⟩ := looping.entriesHeld
  have frames : s.frames = n.toNat := by simp [State.frames, hn]
  exact ⟨by omega, looping.idx_lt⟩

/-- From S_DIM to S_NEXT a step is still to come. -/
theorem State.Inv.stepsLeft_pos {s : State} (inv : s.Inv) (opened : s.phase.afterHeader = true)
    (running : s.phase ≠ .done) : 0 < s.stepsLeft := by
  have room := inv.idx_lt_frames
  revert opened running room
  unfold State.stepsLeft
  cases s.phase <;> simp [Phase.afterHeader, Phase.inLoop] <;> omega

/-- From S_DIM to S_NEXT PHASE names a step operation (43_frame_extraction R188). -/
theorem Phase.stepInstr_of_afterHeader {p : Phase} (opened : p.afterHeader = true) (running : p ≠ .done) :
    ∃ i, p.stepInstr = some i := by
  cases p with
  | idle | sHdr | error => cases opened
  | done => exact absurd rfl running
  | _ => exact ⟨_, rfl⟩

/-- From S_DIM on, the step operation of PHASE comes nearer to the end, and writes neither H_NUMFRAMES nor
the session's parameters. -/
theorem State.Inv.stepsLeft_lt {s t : State} (inv : s.Inv) (quiet : s.Undisturbed) {i : Instr}
    (hi : s.phase.stepInstr = some i) (opened : s.phase.afterHeader = true) (h : exec i s = .next t) :
    t.stepsLeft < s.stepsLeft ∧ t.frames = s.frames ∧
      (t.phase.afterHeader = true ∨ t.phase = .error) ∧ t.Undisturbed := by
  have moved := quiet.answering.next_ne hi h
  have room := inv.idx_lt_frames
  have running : s.phase ≠ .done := by
    intro phase
    rw [phase] at hi
    cases hi
  obtain rfl | ⟨_, _, _, _, _, rfl⟩ | ⟨phase, _⟩ | ⟨phase, _, rfl⟩ | ⟨phase, _, _, rfl⟩ | ⟨phase, rfl | rfl⟩ |
    ⟨phase, _, _, rfl⟩ | ⟨phase, _, _, rfl⟩ | ⟨phase, _, rfl⟩ | ⟨phase, _, _, _, _, _, rfl⟩ |
    ⟨phase, rfl | rfl⟩ := exec_step_cases hi h
  · exact absurd rfl moved
  · exact ⟨inv.stepsLeft_pos opened running, rfl, .inr rfl, quiet.inbox, quiet.answering, quiet.process⟩
  · rw [phase] at opened
    cases opened
  all_goals
    refine ⟨?_, rfl, .inl rfl, quiet.inbox, quiet.answering, quiet.process⟩
    rw [phase] at room
    simp [State.stepsLeft, State.frames, phase, Phase.inLoop] at room ⊢ <;> omega

/-- From S_DIM on, a session ends within the steps it has left. -/
theorem State.Inv.run_ends (k : Nat) {s : State} (inv : s.Inv) (quiet : s.Undisturbed)
    (opened : s.phase.afterHeader = true ∨ s.phase = .error) (enough : s.stepsLeft ≤ k) :
    ∃ (m : Nat) (t : State), Sys2Proof.core.run m s = .next t ∧ (t.phase = .done ∨ t.phase = .error) ∧
      m ≤ k ∧ t.frames = s.frames := by
  induction k using Nat.strongRec generalizing s with
  | ind k ih =>
    by_cases ended : s.phase = .done ∨ s.phase = .error
    · exact ⟨0, s, rfl, ended, Nat.zero_le k, rfl⟩
    · obtain ⟨notDone, notError⟩ := not_or.1 ended
      have later := opened.resolve_right notError
      have pos := inv.stepsLeft_pos later notDone
      obtain ⟨i, hi⟩ := Phase.stepInstr_of_afterHeader later notDone
      obtain ⟨t, out, performed⟩ := quiet.step inv hi
      obtain ⟨nearer, frames, opened', quiet'⟩ := inv.stepsLeft_lt quiet hi later performed
      obtain ⟨m, u, run, ends, bound, same⟩ :=
        ih (k - 1) (by omega) (everyStepKeepsInv s t inv out) quiet' opened' (by omega)
      exact ⟨m + 1, u, (run_succ out m).trans run, ends, by omega, same.trans frames⟩

/-- Settles O46: one step opens the header or raises, and from S_DIM on the session has at most
`3 + 5 * H_NUMFRAMES` steps left. -/
theorem runEndsInDoneOrError : Obligations.RunEndsInDoneOrError := by
  intro s inv phase inbox answering process
  have quiet : s.Undisturbed := ⟨inbox, answering, process⟩
  obtain ⟨t, out, performed⟩ := quiet.step inv (i := .sHdr) (by rw [phase]; rfl)
  have inv' := everyStepKeepsInv s t inv out
  obtain ⟨never, _⟩ | ⟨_, rfl⟩ | ⟨_, _, _, rfl⟩ | ⟨b, _, _, rfl⟩ := execSHdr_cases performed
  · exact absurd never (answering.memRead_ne_never _ _)
  · exact ⟨1, _, run_succ out 0, .inr rfl, by omega⟩
  · exact ⟨1, _, run_succ out 0, .inr rfl, by omega⟩
  · obtain ⟨m, u, run, ends, bound, same⟩ := inv'.run_ends _ ⟨inbox, answering, process⟩ (.inl rfl) le_rfl
    refine ⟨m + 1, u, (run_succ out m).trans run, ends, ?_⟩
    have left : (s.latchHeader (headerOf b)).stepsLeft = 5 * u.frames + 3 := by rw [same]; rfl
    rw [left] at bound
    change m + 1 ≤ 4 + 5 * u.frames
    omega

end Sys2Proof.Machine
end

section
/-! What a step leaves as it is, and which PHASE it leads to (10_state R31, R38, section 8). -/

namespace Sys2Proof.Machine

open Sys2Proof.Claim

/-! ## The session's parameters -/

/-- STREAM, STREAM_LEN, both oracles and the option are in `t` as in `s`. -/
structure State.SameSession (s t : State) : Prop where
  stream : t.stream = s.stream
  streamLen : t.streamLen = s.streamLen
  ioAnswers : t.ioAnswers = s.ioAnswers
  inflateAnswers : t.inflateAnswers = s.inflateAnswers
  emptyFirst : t.emptyFirst = s.emptyFirst

theorem State.SameSession.refl (s : State) : s.SameSession s := ⟨rfl, rfl, rfl, rfl, rfl⟩

theorem State.sameSession_tick (s : State) : s.SameSession s.tick :=
  ⟨s.tick_stream, s.tick_streamLen, s.tick_ioAnswers, s.tick_inflateAnswers, s.tick_emptyFirst⟩

theorem State.sameSession_checkTerminator (s : State) (v : Bool) (n : Index) :
    s.SameSession (s.checkTerminator v n) := by
  obtain ⟨_, _, out⟩ | ⟨_, _, out⟩ | ⟨_, out⟩ := s.checkTerminator_cases v n <;> rw [out] <;>
    exact ⟨rfl, rfl, rfl, rfl, rfl⟩

theorem State.sameSession_resolveSpan (s : State) (d a z : Word) : s.SameSession (s.resolveSpan d a z) := by
  obtain ⟨_, out⟩ | ⟨_, _, out⟩ := s.resolveSpan_cases d a z <;> rw [out] <;> exact ⟨rfl, rfl, rfl, rfl, rfl⟩

theorem State.sameSession_advance (s : State) (ty : FrameType) (n : Index) :
    s.SameSession (s.advance ty n) := by
  obtain ⟨_, out⟩ | ⟨_, _, out⟩ := s.advance_cases ty n <;> rw [out] <;> exact ⟨rfl, rfl, rfl, rfl, rfl⟩

theorem State.sameSession_acceptHeader (s : State) (h : Except ErrCode Header) :
    s.SameSession (s.acceptHeader h) := by
  cases h <;> exact ⟨rfl, rfl, rfl, rfl, rfl⟩

/-- An ENTRY word does what one of the three PHASEs that consult one does with it, or nothing. -/
theorem consultEntry_cases {o : BitVec 30} {ty : FrameType} {s t : State} (h : consultEntry o ty s = .next t) :
    (∃ n, t = s.checkTerminator (ty = .empty) n) ∨ (∃ d a, t = s.resolveSpan d a (o.setWidth 32)) ∨
      (∃ n, t = s.advance ty n) ∨ t = s := by
  unfold consultEntry at h
  split at h
  · obtain ⟨n, _, out⟩ := needValue_eq_next.1 h
    cases out
    exact .inl ⟨n, rfl⟩
  · obtain ⟨d, _, h⟩ := needValue_eq_next.1 h
    obtain ⟨e, _, out⟩ := needValue_eq_next.1 h
    cases out
    exact .inr (.inl ⟨d, _, rfl⟩)
  · obtain ⟨n, _, out⟩ := needValue_eq_next.1 h
    cases out
    exact .inr (.inr (.inl ⟨n, rfl⟩))
  all_goals
    cases h
    exact .inr (.inr (.inr rfl))

theorem sameSession_consultEntry {o : BitVec 30} {ty : FrameType} {s t : State}
    (h : consultEntry o ty s = .next t) : s.SameSession t := by
  obtain ⟨n, rfl⟩ | ⟨d, a, rfl⟩ | ⟨n, rfl⟩ | rfl := consultEntry_cases h
  · exact s.sameSession_checkTerminator _ _
  · exact s.sameSession_resolveSpan _ _ _
  · exact s.sameSession_advance _ _
  · exact .refl _

/-- No instruction but RUN writes a parameter of the session (20_memory R61, R73). -/
theorem sameSession_exec {s t : State} {i : Instr} (hi : ∀ b n, i ≠ .run b n) (h : exec i s = .next t) :
    s.SameSession t := by
  cases i with
  | entryEmpty | entryIFrame | entryPFrame | entryIPFrame => exact sameSession_consultEntry h
  | header =>
    unfold exec execHeader at h
    split_ifs at h <;> cases h
    · exact s.sameSession_acceptHeader _
    · exact .refl s
  | eoff | etype | epack | hparse | hbuild | tvalid | rexp | rasm | reset =>
    cases h
    exact ⟨rfl, rfl, rfl, rfl, rfl⟩
  | run b n => exact absurd rfl (hi b n)
  | sHdr =>
    obtain ⟨_, rfl⟩ | ⟨_, rfl⟩ | ⟨_, _, _, rfl⟩ | ⟨_, _, _, rfl⟩ := execSHdr_cases h <;>
      exact ⟨rfl, rfl, rfl, rfl, rfl⟩
  | sDim =>
    obtain ⟨_, _, _, _, ⟨_, rfl⟩ | ⟨_, rfl⟩⟩ := execSDim_cases h <;> exact ⟨rfl, rfl, rfl, rfl, rfl⟩
  | sTread =>
    obtain ⟨_, _, ⟨_, rfl⟩ | ⟨_, _, rfl⟩ | ⟨_, _, rfl⟩⟩ := execSTread_cases h <;> exact ⟨rfl, rfl, rfl, rfl, rfl⟩
  | sTvalid =>
    obtain ⟨_, _, _, rfl⟩ := execSTvalid_cases h
    exact s.sameSession_checkTerminator _ _
  | sSpan =>
    obtain ⟨_, _, _, _, _, _, rfl⟩ := execSSpan_cases h
    exact s.sameSession_resolveSpan _ _ _
  | sFetch =>
    obtain ⟨_, _, _, _, _, ⟨_, rfl⟩ | ⟨_, rfl⟩ | ⟨_, _, rfl⟩⟩ := execSFetch_cases h <;>
      exact ⟨rfl, rfl, rfl, rfl, rfl⟩
  | sInfl =>
    obtain ⟨_, _, ⟨_, rfl⟩ | ⟨_, _, _, rfl⟩ | ⟨_, _, _, _, _, rfl⟩⟩ := execSInfl_cases h <;>
      exact ⟨rfl, rfl, rfl, rfl, rfl⟩
  | sExpand =>
    obtain ⟨_, _, _, _, _, _, _, rfl⟩ := execSExpand_cases h
    exact ⟨rfl, rfl, rfl, rfl, rfl⟩
  | sNext =>
    obtain ⟨_, _, _, _, rfl⟩ := execSNext_cases h
    exact s.sameSession_advance _ _

/-- Settles O39: the parameters stay, and the STREAM with every byte of it. -/
theorem streamIsReadOnly : Obligations.StreamIsReadOnly := by
  intro s t i hi h
  obtain ⟨stream, streamLen, io, inflate, option⟩ := sameSession_exec hi h
  exact ⟨fun a => by rw [stream], stream, streamLen, io, inflate, option⟩

/-! ## One step -/

/-- Where no request is due and there is no step operation to perform, nothing but time passes. -/
theorem step_of_still {s : State} (idle : s.dueRequest = none)
    (still : s.heldBack = true ∨ s.phase.stepInstr = none) : step s = .next s.tick := by
  obtain ⟨r, due, _⟩ | ⟨i, _, free, hi, _⟩ | ⟨_, _, out⟩ := step_cases s
  · simp [idle] at due
  · simp [free, hi] at still
  · exact out

/-- A step on which no request is due writes no parameter of the session. -/
theorem sameSession_step {s t : State} (idle : s.dueRequest = none) (h : step s = .next t) :
    s.SameSession t := by
  obtain ⟨r, due, _⟩ | ⟨i, _, _, hi, out⟩ | ⟨_, _, out⟩ := step_cases s
  · simp [idle] at due
  · have notRun : ∀ b n, i ≠ .run b n := by
      rintro b n rfl
      revert hi
      cases s.phase <;> nofun
    have before := s.sameSession_tick
    have after := sameSession_exec notRun (out.symm.trans h)
    exact ⟨after.stream.trans before.stream, after.streamLen.trans before.streamLen,
      after.ioAnswers.trans before.ioAnswers, after.inflateAnswers.trans before.inflateAnswers,
      after.emptyFirst.trans before.emptyFirst⟩
  · cases out.symm.trans h
    exact s.sameSession_tick

/-- A step is a tick, the step operation of PHASE after it, or the host's turn, which answers, starts a session
or, for a request with the code 0x1E, resets. -/
theorem step_next_cases {s t : State} (h : step s = .next t) :
    (∃ r, s.dueRequest = some r ∧ ((∃ a, t = s.takeRequest.answer a) ∨
      (r.opsel = 0x1E ∧ t = s.takeRequest.toReset) ∨
      (s.phase = .idle ∧ ∃ b n, t = s.takeRequest.start b n))) ∨
    (∃ i, s.dueRequest = none ∧ s.phase.stepInstr = some i ∧ exec i s.tick = .next t) ∨
    (s.dueRequest = none ∧ t = s.tick) := by
  obtain ⟨r, due, out⟩ | ⟨i, idle, _, hi, out⟩ | ⟨idle, _, out⟩ := step_cases s <;> rw [out] at h
  · refine .inl ⟨r, due, ?_⟩
    obtain ⟨a, out⟩ | ⟨reset, out⟩ | ⟨b, n, _, phase, out⟩ := serve_cases r s.takeRequest <;> cases out.symm.trans h
    · exact .inl ⟨a, rfl⟩
    · exact .inr (.inl ⟨(decodeOp_eq_ok.1 reset).2.1.symm, rfl⟩)
    · exact .inr (.inr ⟨phase, b, n, rfl⟩)
  · exact .inr (.inl ⟨i, idle, hi, h⟩)
  · cases h
    exact .inr (.inr ⟨idle, rfl⟩)

/-- Settles O34: in ERROR there is no step operation and no START; RESET alone writes an element. -/
theorem errorIsLeftByResetOnly : Obligations.ErrorIsLeftByResetOnly := by
  intro s t error h
  obtain ⟨r, due, ⟨a, rfl⟩ | ⟨reset, rfl⟩ | ⟨phase, _⟩⟩ | ⟨i, _, hi, _⟩ | ⟨_, rfl⟩ := step_next_cases h
  · exact .inr rfl
  · exact .inl ⟨r, due, reset, rfl, rfl, rfl⟩
  · simp [error] at phase
  · simp [error, Phase.stepInstr] at hi
  · right
    rw [s.tick_answers]
    exact s.tick_eq

/-- A PHASE with a step operation is BUSY (10_state R39). -/
theorem Phase.status_of_stepInstr {p : Phase} {i : Instr} (h : p.stepInstr = some i) : p.status = .busy := by
  cases p with
  | idle | done | error => cases h
  | _ => rfl

/-- Settles O36: each step operation names its successor, stays, or raises. -/
theorem phaseAdvancesByTable : Obligations.PhaseAdvancesByTable := by
  refine ⟨by decide, fun s t idle h => ?_⟩
  obtain ⟨r, due, _⟩ | ⟨i, _, hi, out⟩ | ⟨_, rfl⟩ := step_next_cases h
  · simp [idle] at due
  · have busy : s.status = .busy := Phase.status_of_stepInstr hi
    rw [← s.tick_phase] at hi
    obtain rfl | ⟨_, _, _, _, _, rfl⟩ | ⟨phase, _, _, rfl⟩ | ⟨phase, _, rfl⟩ | ⟨phase, _, _, rfl⟩ |
      ⟨phase, rfl | rfl⟩ | ⟨phase, _, _, rfl⟩ | ⟨phase, _, _, rfl⟩ | ⟨phase, _, rfl⟩ |
      ⟨phase, _, _, _, _, _, rfl⟩ | ⟨phase, rfl | rfl⟩ := exec_step_cases hi out
    · exact .inl rfl
    · exact .inr (.inr ⟨busy, rfl⟩)
    all_goals
      rw [s.tick_phase] at phase
      simp [phase, successors]
  · exact .inl rfl

/-- Settles O37: S_EXPAND alone appends, and RESET alone empties. -/
theorem outIsAppendOnly : Obligations.OutIsAppendOnly := by
  intro s t h noReset
  obtain ⟨r, due, ⟨a, rfl⟩ | ⟨reset, _⟩ | ⟨_, _, _, rfl⟩⟩ | ⟨i, idle, hi, out⟩ | ⟨_, rfl⟩ := step_next_cases h
  · exact .inl rfl
  · exact absurd reset (noReset r due)
  · exact .inl rfl
  · rw [← s.tick_phase] at hi
    obtain rfl | ⟨_, _, _, _, _, rfl⟩ | ⟨_, _, _, rfl⟩ | ⟨_, _, rfl⟩ | ⟨_, _, _, rfl⟩ |
      ⟨_, rfl | rfl⟩ | ⟨_, _, _, rfl⟩ | ⟨_, _, _, rfl⟩ | ⟨_, _, rfl⟩ |
      ⟨phase, p, w, v, hw, hv, rfl⟩ | ⟨_, rfl | rfl⟩ := exec_step_cases hi out
    case inr.inr.inr.inr.inr.inr.inr.inr.inr.inl =>
      simp only [s.tick_phase, s.tick_hWidth, s.tick_hHeight] at phase hw hv
      exact .inr ⟨phase, idle, _, by rw [s.tick_out], by rw [s.tick_idx], hw, hv, rfl⟩
    all_goals exact .inl s.tick_out
  · exact .inl s.tick_out

/-- Settles O38: S_TREAD alone latches a table, and RESET alone drops one. -/
theorem tableIsWrittenBySTreadOnly : Obligations.TableIsWrittenBySTreadOnly := by
  intro s t h noReset noTread
  obtain ⟨r, due, ⟨a, rfl⟩ | ⟨reset, _⟩ | ⟨_, _, _, rfl⟩⟩ | ⟨i, idle, hi, out⟩ | ⟨_, rfl⟩ := step_next_cases h
  · exact ⟨rfl, rfl, rfl, rfl⟩
  · exact absurd reset (noReset r due)
  · exact ⟨rfl, rfl, rfl, rfl⟩
  · rw [← s.tick_phase] at hi
    obtain rfl | ⟨_, _, _, _, _, rfl⟩ | ⟨_, _, _, rfl⟩ | ⟨_, _, rfl⟩ | ⟨phase, _⟩ |
      ⟨_, rfl | rfl⟩ | ⟨_, _, _, rfl⟩ | ⟨_, _, _, rfl⟩ | ⟨_, _, rfl⟩ | ⟨_, _, _, _, _, _, rfl⟩ |
      ⟨_, rfl | rfl⟩ := exec_step_cases hi out
    case inr.inr.inr.inr.inl =>
      rw [s.tick_phase] at phase
      exact absurd phase (noTread idle)
    all_goals exact ⟨s.tick_table, s.tick_tLen, s.tick_tValid, s.tick_dataBase⟩
  · exact ⟨s.tick_table, s.tick_tLen, s.tick_tValid, s.tick_dataBase⟩

end Sys2Proof.Machine
end

section
/-! What a step cannot tell apart: STREAM bytes that its PHASE does not read (20_memory R71), and the non-Empty
types of the table's entries (30_encoding R98, 43_frame_extraction R186). One simulation lemma says both. -/

namespace Sys2Proof.Machine

open Sys2Proof.Claim

/-- `s` with another table and another STREAM. -/
def State.given (s : State) (u : List Word) (m : Memory) : State := { s with table := u, stream := m }

@[simp] theorem State.given_table (s : State) (u : List Word) (m : Memory) : (s.given u m).table = u := rfl
@[simp] theorem State.given_inbox (s : State) (u : List Word) (m : Memory) : (s.given u m).inbox = s.inbox := rfl
@[simp] theorem State.given_phase (s : State) (u : List Word) (m : Memory) : (s.given u m).phase = s.phase := rfl
@[simp] theorem State.given_idx (s : State) (u : List Word) (m : Memory) : (s.given u m).idx = s.idx := rfl
@[simp] theorem State.given_streamLen (s : State) (u : List Word) (m : Memory) :
    (s.given u m).streamLen = s.streamLen := rfl
@[simp] theorem State.given_emptyFirst (s : State) (u : List Word) (m : Memory) :
    (s.given u m).emptyFirst = s.emptyFirst := rfl

/-! ## Tables with the same offsets and the same Empty entries -/

section
variable {t u : List Word} (same : SameButTypes t u)
include same

/-- The words at one index of two such tables have one offset, and both are Empty or neither. -/
theorem SameButTypes.getElem? {k : Nat} {e : Word} (he : t[k]? = some e) :
    ∃ e', u[k]? = some e' ∧ eoff e' = eoff e ∧ (etype e = .empty ↔ etype e' = .empty) := by
  have length := List.Forall₂.length_eq same
  obtain ⟨inside, rfl⟩ := List.getElem?_eq_some_iff.1 he
  obtain ⟨offsets, types⟩ := List.Forall₂.get same inside (length ▸ inside)
  refine ⟨u[k], List.getElem?_eq_getElem (length ▸ inside), BitVec.eq_of_toNat_eq ?_, ?_⟩
  · rw [eoff_toNat, eoff_toNat]
    exact offsets.symm
  · rw [etype_eq_empty_iff, etype_eq_empty_iff]
    exact types

theorem SameButTypes.tvalid_eq : tvalid u = tvalid t := by
  have length := List.Forall₂.length_eq same
  unfold tvalid
  rw [List.getLast?_eq_getElem?, List.getLast?_eq_getElem?, ← length]
  cases he : t[t.length - 1]? with
  | none =>
    rw [List.getElem?_eq_none_iff] at he
    rw [List.getElem?_eq_none (length ▸ he)]
  | some e =>
    obtain ⟨e', he', -, types⟩ := SameButTypes.getElem? same he
    simp only [he', types]

end

/-- S_NEXT looks at the type as Empty or not (43_frame_extraction R186, R187). -/
theorem State.advance_congr (s : State) {ty ty' : FrameType} (n : Index)
    (h : ty = .empty ↔ ty' = .empty) : s.advance ty n = s.advance ty' n := by
  simp only [State.advance, h]

/-! ## Reads of another STREAM -/

section
variable {s : State} (u : List Word) {m : Memory}

theorem State.given_memRead {a n : Nat} (agree : ∀ x, a ≤ x → x < a + n → m.read x = s.stream.read x) :
    (s.given u m).memRead a n = s.memRead a n := by
  have bytes : m.readBytes a n = s.stream.readBytes a n := Memory.readBytes_congr _ _ a n agree
  simp only [State.memRead, State.given, bytes]

theorem State.given_readEntries (count : Nat) {j : Nat}
    (agree : ∀ x, 28 + 4 * j ≤ x → x < 28 + 4 * (j + count) → m.read x = s.stream.read x) :
    (s.given u m).readEntries count j = s.readEntries count j := by
  induction count generalizing j with
  | zero => rfl
  | succ count ih =>
    have first : (s.given u m).memRead (28 + 4 * j) 4 = s.memRead (28 + 4 * j) 4 :=
      State.given_memRead u fun x _ _ => agree x (by omega) (by omega)
    have rest : (s.given u m).readEntries count (j + 1) = s.readEntries count (j + 1) :=
      ih fun x _ _ => agree x (by omega) (by omega)
    simp only [State.readEntries, Config.headerSize, Config.entrySize, first, rest]

end

/-! ## The shared decisions write neither -/

theorem State.given_checkTerminator (s : State) (u : List Word) (m : Memory) (v : Bool) (n : Index) :
    (s.checkTerminator v n).table = s.table ∧
      (s.given u m).checkTerminator v n = (s.checkTerminator v n).given u m := by
  unfold State.checkTerminator
  split <;> exact ⟨rfl, rfl⟩

theorem State.given_resolveSpan (s : State) (u : List Word) (m : Memory) (d a z : Word) :
    (s.resolveSpan d a z).table = s.table ∧
      (s.given u m).resolveSpan d a z = (s.resolveSpan d a z).given u m := by
  unfold State.resolveSpan
  rw [State.given_streamLen, State.given_idx]
  split_ifs <;> exact ⟨rfl, rfl⟩

theorem State.given_advance (s : State) (u : List Word) (m : Memory) (ty : FrameType) (n : Index) :
    (s.advance ty n).table = s.table ∧ (s.given u m).advance ty n = (s.advance ty n).given u m := by
  unfold State.advance
  rw [State.given_idx]
  split_ifs <;> exact ⟨rfl, rfl⟩

/-! ## The simulation -/

/-- The step operation of PHASE on another table that differs in non-Empty types alone and another STREAM that
agrees where it reads: the same next state, but for the STREAM and a table that differs so again. -/
theorem exec_given {s t : State} {i : Instr} {u : List Word} {m : Memory} (same : SameButTypes s.table u)
    (agree : ∀ a, Reads s a → m.read a = s.stream.read a) (hi : s.phase.stepInstr = some i)
    (h : exec i s = .next t) :
    ∃ u', SameButTypes t.table u' ∧ (u = s.table → u' = t.table) ∧
      exec i (s.given u m) = .next (t.given u' m) := by
  obtain ⟨phase, rfl⟩ | ⟨phase, rfl⟩ | ⟨phase, rfl⟩ | ⟨phase, rfl⟩ | ⟨phase, rfl⟩ | ⟨phase, rfl⟩ | ⟨phase, rfl⟩ |
    ⟨phase, rfl⟩ | ⟨phase, rfl⟩ := Phase.stepInstr_cases hi
  all_goals simp only [Reads, phase] at agree
  · have read := State.given_memRead (a := 0) (n := 28) u fun x _ hx => agree x (by omega)
    obtain ⟨out, rfl⟩ | ⟨out, rfl⟩ | ⟨b, out, other, rfl⟩ | ⟨b, out, magic, rfl⟩ := execSHdr_cases h <;>
      rw [← read] at out
    · exact ⟨u, same, id, exec_sHdr_of_never out⟩
    · exact ⟨u, same, id, exec_sHdr_of_fail out⟩
    · refine ⟨u, same, id, (exec_sHdr_of_bytes out).trans ?_⟩
      rw [hparse_of_not_magic other]
      rfl
    · refine ⟨u, same, id, (exec_sHdr_of_bytes out).trans ?_⟩
      rw [hparse_of_magic magic]
      rfl
  · obtain ⟨w, v, hw, hv, out⟩ := execSDim_cases h
    have step := exec_sDim (s := s.given u m) hw hv
    obtain ⟨good, rfl⟩ | ⟨bad, rfl⟩ := out
    · exact ⟨u, same, id, by rw [step, if_pos good]; rfl⟩
    · exact ⟨u, same, id, by rw [step, bad]; rfl⟩
  · obtain ⟨n, hn, out⟩ := execSTread_cases h
    have read := State.given_readEntries u (n.toNat + 1) (j := 0) fun x _ _ => agree x ⟨by omega, n, hn, by omega⟩
    rw [← read] at out
    obtain ⟨out, rfl⟩ | ⟨j, out, rfl⟩ | ⟨ws, out, rfl⟩ := out
    · exact ⟨u, same, id, exec_sTread_of_never hn out⟩
    · exact ⟨u, same, id, exec_sTread_of_failed hn out⟩
    · exact ⟨ws, List.forall₂_same.2 fun e _ => ⟨rfl, Iff.rfl⟩, fun _ => rfl, exec_sTread_of_words hn out⟩
  · obtain ⟨n, hn, held, rfl⟩ := execSTvalid_cases h
    obtain ⟨table, out⟩ := s.given_checkTerminator u m (tvalid (s.table.take n.toNat)) n
    have valid : tvalid (u.take n.toNat) = tvalid (s.table.take n.toNat) :=
      SameButTypes.tvalid_eq (List.forall₂_take _ same)
    have held' : n.toNat ≤ (s.given u m).table.length := held.trans (List.Forall₂.length_eq same).le
    refine ⟨u, by rwa [table], fun h => h.trans table.symm, ?_⟩
    rw [← out, ← valid]
    exact exec_sTvalid hn held'
  · obtain ⟨d, e, e', hd, he, he', rfl⟩ := execSSpan_cases h
    obtain ⟨table, out⟩ := s.given_resolveSpan u m d (eoff e) (eoff e')
    obtain ⟨f, hf, start, -⟩ := SameButTypes.getElem? same he
    obtain ⟨f', hf', stop, -⟩ := SameButTypes.getElem? same he'
    refine ⟨u, table ▸ same, fun h => h.trans table.symm, ?_⟩
    rw [← out, ← start, ← stop]
    exact exec_sSpan hd hf hf'
  · obtain ⟨a, z, ha, hz, ordered, out⟩ := execSFetch_cases h
    have read := State.given_memRead (a := a.toNat) (n := z.toNat - a.toNat) u fun x _ _ =>
      agree x ⟨a, z, ha, hz, by omega, by omega⟩
    rw [← read] at out
    obtain ⟨out, rfl⟩ | ⟨out, rfl⟩ | ⟨b, out, rfl⟩ := out
    · exact ⟨u, same, id, exec_sFetch_of_never ha hz ordered out⟩
    · exact ⟨u, same, id, exec_sFetch_of_fail ha hz ordered out⟩
    · exact ⟨u, same, id, exec_sFetch_of_bytes (s := s.given u m) ha hz ordered out⟩
  · obtain ⟨c, hc, ⟨out, rfl⟩ | ⟨a, failure, ha, rfl⟩ | ⟨p, n, out, hn, whole, rfl⟩⟩ := execSInfl_cases h
    · exact ⟨u, same, id, exec_sInfl_of_never hc out⟩
    · refine ⟨u, same, id, ?_⟩
      rw [State.raise_toNat]
      obtain out | ⟨p, n, out, hn, other⟩ := failure
      · exact (exec_sInfl_of_fail (s := s.given u m) hc out).trans (raiseAtSpan_of (s := s.given u m) ha _)
      · rw [exec_sInfl_of_ok (s := s.given u m) hc out hn, if_neg other]
        exact raiseAtSpan_of (s := s.given u m) ha _
    · refine ⟨u, same, id, ?_⟩
      rw [exec_sInfl_of_ok (s := s.given u m) hc out hn, if_pos whole]
      rfl
  · obtain ⟨p, w, v, hp, hw, hv, domain, rfl⟩ := execSExpand_cases h
    exact ⟨u, same, id, exec_sExpand hp hw hv domain⟩
  · obtain ⟨e, n, he, hn, rfl⟩ := execSNext_cases h
    obtain ⟨table, out⟩ := s.given_advance u m (etype e) n
    obtain ⟨e', he', -, types⟩ := SameButTypes.getElem? same he
    refine ⟨u, table ▸ same, fun h => h.trans table.symm, ?_⟩
    rw [← out, State.advance_congr _ n types]
    exact exec_sNext he' hn

/-! ## One step -/

theorem State.given_tick (s : State) (u : List Word) (m : Memory) :
    (s.given u m).tick = s.tick.given u m := by
  unfold State.tick
  rw [State.given_inbox]
  split <;> rfl

/-- The session is held back by the first entry's type being Empty or not (log entry 6). -/
theorem State.given_heldBack {s : State} {u : List Word} (same : SameButTypes s.table u) (m : Memory) :
    (s.given u m).heldBack = s.heldBack := by
  unfold State.heldBack
  rw [State.given_emptyFirst, State.given_phase, State.given_table]
  unfold SameButTypes at same
  generalize s.table = words at same ⊢
  cases same with
  | nil => rfl
  | cons first _ => simp only [etype_eq_empty_iff, first.2]

/-- A step where no request is due, on another table and STREAM of this kind. -/
theorem step_given {s t : State} {u : List Word} {m : Memory} (same : SameButTypes s.table u)
    (agree : ∀ a, Reads s a → m.read a = s.stream.read a) (idle : s.dueRequest = none)
    (h : step s = .next t) :
    ∃ u', SameButTypes t.table u' ∧ (u = s.table → u' = t.table) ∧
      step (s.given u m) = .next (t.given u' m) := by
  have held := State.given_heldBack same m
  obtain ⟨r, due, _⟩ | ⟨i, _, free, hi, out⟩ | ⟨_, still, out⟩ := step_cases s
  · simp [idle] at due
  · rw [out] at h
    rw [step_of_phase (s := s.given u m) idle (held.trans free) hi, State.given_tick]
    rw [← s.tick_phase] at hi
    rw [← s.tick_table] at same ⊢
    refine exec_given same (fun a reads => ?_) hi h
    rw [s.tick_stream]
    exact agree a (by rw [s.tick_eq] at reads; exact reads)
  · rw [out] at h
    cases h
    refine ⟨u, by rwa [s.tick_table], fun h => h.trans s.tick_table.symm, ?_⟩
    rw [← held] at still
    rw [step_of_still (s := s.given u m) idle still, State.given_tick]

/-- The host's turn on another table: RESET empties it, and nothing else looks at it. -/
theorem exec_hostMay_table {i : Instr} (hi : hostMay i = true) {s t : State} {u : List Word}
    (same : SameButTypes s.table u) (h : exec i s = .next t) :
    ∃ u', SameButTypes t.table u' ∧ exec i { s with table := u } = .next { t with table := u' } := by
  cases i with
  | eoff | etype | epack | hparse | hbuild | tvalid | rexp | rasm =>
    cases h
    exact ⟨u, same, rfl⟩
  | reset =>
    cases h
    exact ⟨[], .nil, rfl⟩
  | run b n =>
    by_cases idle : s.phase = .idle
    · rw [exec_run_of_idle idle] at h
      cases h
      exact ⟨u, same, exec_run_of_idle (s := { s with table := u }) idle b n⟩
    · rw [exec_run_of_not_idle idle] at h
      cases h
      exact ⟨u, same, exec_run_of_not_idle (s := { s with table := u }) idle b n⟩
  | _ => cases hi

/-- Serving a request, on another table. -/
theorem serve_table {r : Request} {s t : State} {u : List Word} (same : SameButTypes s.table u)
    (h : serve r s = .next t) :
    ∃ u', SameButTypes t.table u' ∧ serve r { s with table := u } = .next { t with table := u' } := by
  unfold serve at h ⊢
  cases hd : decodeOp r.opsel r.operands with
  | error e =>
    rw [hd] at h
    cases h
    exact ⟨u, same, rfl⟩
  | ok i =>
    rw [hd] at h
    cases hi : hostMay i
    · simp only [hi] at h ⊢
      cases h
      exact ⟨u, same, rfl⟩
    · simp only [hi] at h ⊢
      exact exec_hostMay_table hi same h

/-! ## The statements -/

/-- Settles O42: the sequencer by the simulation, on the same STREAM, the host's turn by RESET and the rest. -/
theorem nonEmptyTypesDoNotSteer : Obligations.NonEmptyTypesDoNotSteer := by
  intro s t u same h
  cases due : s.dueRequest with
  | some r =>
    rw [step_of_due due] at h
    rw [step_of_due (s := { s with table := u }) due]
    exact serve_table (s := s.takeRequest) same h
  | none =>
    obtain ⟨u', same', _, out⟩ := step_given (m := s.stream) same (fun _ _ => rfl) due h
    have stream := (sameSession_step due h).stream
    refine ⟨u', same', out.trans ?_⟩
    rw [State.given, ← stream]

/-- Settles O41: the simulation on the same table. -/
theorem stepReadsItsAddressesOnly : Obligations.StepReadsItsAddressesOnly := by
  intro s t m idle agree h
  obtain ⟨u', _, table, out⟩ := step_given (List.forall₂_same.2 fun _ _ => ⟨rfl, Iff.rfl⟩) agree idle h
  rw [table rfl] at out
  exact out

end Sys2Proof.Machine
end

section
/-! The operation port (30_encoding R105, R106), START's STREAM (43_frame_extraction R177), and the instruction a
step runs (43_frame_extraction R188). -/

namespace Sys2Proof.Machine

open Sys2Proof.Claim

/-! ## Serving a request -/

/-- PDVC performs for the host every request but the step operations (30_encoding R105). -/
theorem hostMay_of_request {i : Instr} (request : i.format = .opsel) : hostMay i = true ↔ i ∉ stepOps := by
  cases i with
  | entryEmpty | entryIFrame | entryPFrame | entryIPFrame | header => cases request
  | _ => simp [hostMay, stepOps]

/-- The codes of what PDVC performs for the host are 0x01 to 0x08, 0x1E and 0x1F (30_encoding R105). -/
theorem opsel_of_hostMay {i : Instr} (h : hostMay i = true) :
    (1 ≤ i.opsel.toNat ∧ i.opsel.toNat ≤ 8) ∨ 0x1E ≤ i.opsel.toNat := by
  cases i with
  | eoff | etype | epack | hparse | hbuild | tvalid | rexp | rasm => simp [Instr.opsel]
  | reset | run => simp [Instr.opsel]
  | _ => cases h

/-- The code 0x1F is RUN's alone (30_encoding R105). -/
theorem eq_run_of_opsel {i : Instr} (h : i.opsel = 0x1F) : ∃ b n, i = .run b n := by
  cases i with
  | run b n => exact ⟨b, n, rfl⟩
  | _ => cases h

/-- A request that decodes to something PDVC performs for the host is performed. -/
theorem serve_of_ok {r : Request} {s : State} {i : Instr} (h : decodeOp r.opsel r.operands = .ok i)
    (host : hostMay i = true) : serve r s = exec i s := by
  simp only [serve, h, host, if_true]

/-- Any other request is refused (30_encoding R106). -/
theorem serve_of_refused {r : Request} {s : State}
    (h : ∀ i, decodeOp r.opsel r.operands = .ok i → hostMay i = false) :
    serve r s = .next (s.answer .refused) := by
  unfold serve
  split
  · next i hd => simp [h i hd]
  · rfl

/-! ## START's STREAM -/

/-- A session's read within the host's STREAM and STREAM_LEN gets the STREAM's bytes (20_memory R64). -/
theorem State.start_readBytes {s : State} {b : List Byte} {n : Word} {a k : Nat} (inside : a + k ≤ n.toNat)
    (reached : a + k ≤ b.length) : (s.start b n).stream.readBytes a k = (b.drop a).take k := by
  rw [Memory.readBytes_eq_map]
  refine List.ext_getElem (by simp; omega) fun j hj _ => ?_
  simp only [List.length_map, List.length_range] at hj
  have hn : a + j < n.toNat := by omega
  have hb : a + j < b.length := by omega
  rw [List.getElem_map, List.getElem_range, s.start_read, if_pos hn, List.getD_eq_getElem _ _ hb, List.getElem_take,
    List.getElem_drop]

/-- Settles O24: START keeps the host's bytes below STREAM_LEN, a free byte where there is none, and nothing at
or past STREAM_LEN. -/
theorem runTakesAnyStreamLen : Obligations.RunTakesAnyStreamLen := by
  intro b n s idle
  refine ⟨s.start b n, exec_run_of_idle idle b n, rfl, rfl, fun a k past => ?_, fun a k inside reached listed => ?_,
    fun a beyond inside => ?_⟩
  · exact State.memRead_eq_fail.2 (.inl past)
  · exact State.memRead_eq_bytes.2 ⟨inside, listed, (State.start_readBytes inside reached).symm⟩
  · rw [s.start_read, if_pos inside, List.getD_eq_default _ _ beyond]

/-! ## The statements -/

/-- Settles O25: the code decides what the request's bytes can decode to, and so who performs it. -/
theorem portFollowsOpselTable : Obligations.PortFollowsOpselTable := by
  intro s r due
  rw [step_of_due due]
  refine ⟨fun code => ?_, fun code => ?_, fun code empty => ?_, fun code busy => ?_, fun code idle long => ?_⟩
  · refine serve_of_refused fun i hd => ?_
    obtain ⟨_, opsel, _⟩ := decodeOp_eq_ok.1 hd
    by_contra host
    have codes := opsel_of_hostMay (Bool.not_eq_false _ ▸ host)
    rw [opsel] at codes
    omega
  · obtain ⟨a, out⟩ | ⟨hd, _⟩ | ⟨b, n, hd, _⟩ := serve_cases r s.takeRequest
    · exact ⟨a, out⟩
    · rw [← (decodeOp_eq_ok.1 hd).2.1] at code
      exact absurd code.2 (by decide)
    · rw [← (decodeOp_eq_ok.1 hd).2.1] at code
      exact absurd code.2 (by decide : ¬ (0x1F : BitVec 5).toNat ≤ 8)
  · have hd : decodeOp r.opsel r.operands = .ok .reset :=
      decodeOp_eq_ok.2 ⟨rfl, (BitVec.eq_of_toNat_eq code).symm, empty.symm⟩
    exact ⟨_, (serve_of_ok hd rfl).trans (exec_reset _), rfl, rfl, rfl⟩
  · cases hd : decodeOp r.opsel r.operands with
    | error e => exact serve_of_refused fun i ok => by simp [hd] at ok
    | ok i =>
      obtain ⟨_, opsel, _⟩ := decodeOp_eq_ok.1 hd
      obtain ⟨b, n, rfl⟩ := eq_run_of_opsel (opsel.trans (BitVec.eq_of_toNat_eq code))
      exact (serve_of_ok hd rfl).trans (exec_run_of_not_idle (s := s.takeRequest) busy b n)
  · have bytes : wordBytes (wordOf (r.operands.take 4)) ++ r.operands.drop 4 = r.operands := by
      rw [wordBytes_wordOf _ (by simpa using long), List.take_append_drop]
    have hd : decodeOp r.opsel r.operands = .ok (.run (r.operands.drop 4) (wordOf (r.operands.take 4))) :=
      decodeOp_eq_ok.2 ⟨rfl, (BitVec.eq_of_toNat_eq code).symm, bytes⟩
    refine ⟨_, (serve_of_ok hd rfl).trans (exec_run_of_idle (s := s.takeRequest) idle _ _), rfl,
      wordOf_sliceOf r.operands 0, fun a inside v hv => ?_⟩
    rw [State.start_streamLen] at inside
    rw [State.start_read, if_pos inside, List.getD_eq_getElem?_getD, List.getElem?_drop, Nat.add_comm, hv,
      Option.getD_some]

/-- Settles O12: each answer is computed from the operands. -/
theorem functionAnswersAreStateless : Obligations.FunctionAnswersAreStateless := by
  refine ⟨fun _ => ⟨_, fun _ => rfl⟩, fun _ => ⟨_, fun _ => rfl⟩, fun _ _ => ⟨_, fun _ => rfl⟩, fun b => ?_,
    fun _ _ _ _ => ⟨_, fun _ => rfl⟩, fun _ => ⟨_, fun _ => rfl⟩, fun _ => ⟨_, fun _ => rfl⟩,
    fun _ _ _ => ⟨_, fun _ => rfl⟩⟩
  refine ⟨_, fun other => ?_, fun _ => rfl⟩
  exact if_neg fun domain => other (of_decide_eq_true domain)

/-- Settles O57: the bytes decode as OPSEL and operands do, and the step operations are not the host's. -/
theorem stepRunsDueRequest : Obligations.StepRunsDueRequest := by
  intro s r rest inbox now
  have due : s.dueRequest = some r := by simp [State.dueRequest, inbox, now]
  have taken : s.takeRequest = { s with inbox := rest } := by rw [State.takeRequest, inbox, List.tail_cons]
  rw [decode_request, step_of_due due, taken]
  refine ⟨fun i hd other => ?_, fun i hd stepOp => ?_, fun none => ?_⟩
  · exact serve_of_ok hd ((hostMay_of_request (decodeOp_eq_ok.1 hd).1).2 other)
  · refine serve_of_refused fun j hj => ?_
    cases hd.symm.trans hj
    rw [← Bool.not_eq_true, hostMay_of_request (decodeOp_eq_ok.1 hd).1]
    exact not_not.2 stepOp
  · exact serve_of_refused fun i hd => absurd hd (none i)

/-- The byte `0x10 | PHASE` decodes to the step operation of PHASE, or to nothing (30_encoding R105). -/
theorem decode_phase (p : Phase) (i : Instr) :
    decode .opsel [0x10 ||| p.code.setWidth 8] = .ok i ↔ p.stepInstr = some i := by
  cases p with
  | idle | done | error => exact ⟨nofun, nofun⟩
  | _ => exact ⟨fun h => by cases h; rfl, fun h => by cases h; rfl⟩

/-- Settles O56: the sequencer fetches the instruction of that byte. -/
theorem stepRunsPhaseInstruction : Obligations.StepRunsPhaseInstruction := by
  intro s idle free
  refine ⟨fun i hi => step_of_phase idle free ((decode_phase _ i).1 hi), fun none => step_of_still idle (.inr ?_)⟩
  cases hi : s.phase.stepInstr with
  | none => rfl
  | some i => exact absurd ((decode_phase _ i).2 hi) (none i)

/-- Settles O48: an Empty-typed first entry holds the sequencer back. -/
theorem refusedEmptyFirstEntryIsStuck : Obligations.RefusedEmptyFirstEntryIsStuck := by
  intro s e rest idle option phase table empty
  have held : s.heldBack = true := by
    simp [State.heldBack, option, phase, table, (etype_eq_empty_iff e).2 empty]
  exact step_of_still idle (.inl held)

/-- Settles O55: closed words, decoded by evaluation. -/
theorem sampleWordsDecode : Obligations.SampleWordsDecode := by
  unfold Obligations.SampleWordsDecode
  decide

end Sys2Proof.Machine
end

section
/-! The container's own words (30_encoding R98, 41_header_codec R150; log entry 11), and what the invariant says
of a host read of the header (10_state R21). -/

namespace Sys2Proof.Machine

open Sys2Proof.Claim

/-! ## What an ENTRY word does in each PHASE -/

/-- An ENTRY of any type does what the decode path does with its offset and type (30_encoding R98). -/
theorem exec_entryInstr (ty : FrameType) (o : BitVec 30) (s : State) :
    exec (entryInstr ty o) s = consultEntry o ty s := by
  cases ty <;> rfl

/-- The four ENTRY rows, by their type. -/
theorem mem_entryWords {o : BitVec 30} {i : Instr}
    (h : i ∈ [Instr.entryEmpty o, .entryIFrame o, .entryPFrame o, .entryIPFrame o]) :
    ∃ ty, i = entryInstr ty o := by
  simp only [List.mem_cons, List.not_mem_nil, or_false] at h
  obtain rfl | rfl | rfl | rfl := h
  exacts [⟨.empty, rfl⟩, ⟨.iFrame, rfl⟩, ⟨.pFrame, rfl⟩, ⟨.ipFrame, rfl⟩]

/-- The three rows that are not Empty, by their type. -/
theorem mem_nonEmptyWords {o : BitVec 30} {i : Instr}
    (h : i ∈ [Instr.entryIFrame o, .entryPFrame o, .entryIPFrame o]) :
    ∃ ty, ty ≠ .empty ∧ i = entryInstr ty o := by
  simp only [List.mem_cons, List.not_mem_nil, or_false] at h
  obtain rfl | rfl | rfl := h
  exacts [⟨.iFrame, by decide, rfl⟩, ⟨.pFrame, by decide, rfl⟩, ⟨.ipFrame, by decide, rfl⟩]

section
variable {s : State} (ty : FrameType) (o : BitVec 30)

theorem exec_entry_of_sNext {n : Index} (phase : s.phase = .sNext) (hn : s.tLen = some n) :
    exec (entryInstr ty o) s = .next (s.advance ty n) := by
  rw [exec_entryInstr, consultEntry, phase]
  exact needValue_of hn

theorem exec_entry_of_sTvalid {n : Index} (phase : s.phase = .sTvalid) (hn : s.tLen = some n) :
    exec (entryInstr ty o) s = .next (s.checkTerminator (ty = .empty) n) := by
  rw [exec_entryInstr, consultEntry, phase]
  exact needValue_of hn

theorem exec_entry_of_sSpan (phase : s.phase = .sSpan) :
    exec (entryInstr ty o) s =
      needValue .dataBase s.dataBase fun d =>
      needValue (.table s.idx.toNat) s.table[s.idx.toNat]? fun e =>
      .next (s.resolveSpan d (eoff e) (o.setWidth 32)) := by
  rw [exec_entryInstr, consultEntry, phase]

theorem exec_entry_elsewhere (h₁ : s.phase ≠ .sTvalid) (h₂ : s.phase ≠ .sSpan) (h₃ : s.phase ≠ .sNext) :
    exec (entryInstr ty o) s = .next s := by
  rw [exec_entryInstr]
  unfold consultEntry
  split
  · next h => exact absurd h h₁
  · next h => exact absurd h h₂
  · next h => exact absurd h h₃
  all_goals rfl

end

/-- Settles O26: S_NEXT's decision on the word's type. -/
theorem entryWordsSteerSNext : Obligations.EntryWordsSteerSNext := by
  intro o s n phase hn
  rw [ofNat_toNat_succ]
  refine ⟨?_, fun i hi => ?_⟩
  · refine (exec_entry_of_sNext .empty o phase hn).trans ?_
    obtain ⟨_, out⟩ | ⟨other, _, _⟩ := s.advance_cases .empty n
    · rw [out]
    · exact absurd rfl other
  · obtain ⟨ty, other, rfl⟩ := mem_nonEmptyWords hi
    rw [exec_entry_of_sNext ty o phase hn]
    obtain ⟨stops, out⟩ | ⟨_, inner, out⟩ := s.advance_cases ty n <;> rw [out]
    · exact ⟨fun _ => rfl, fun inner => absurd (stops.resolve_left other) inner⟩
    · exact ⟨fun last => absurd last inner, fun _ => rfl⟩

/-- Settles O27: S_TVALID's decision on the word's type. -/
theorem entryWordsDecideSTvalid : Obligations.EntryWordsDecideSTvalid := by
  intro o s n phase hn pos
  refine ⟨exec_entry_of_sTvalid .empty o phase hn, fun i hi => ?_⟩
  obtain ⟨ty, other, rfl⟩ := mem_nonEmptyWords hi
  have address : 28 + 4 * n.toNat - 4 = 28 + 4 * (n.toNat - 1) := by omega
  rw [exec_entry_of_sTvalid ty o phase hn, decide_eq_false other]
  obtain ⟨valid, _⟩ | ⟨valid, _⟩ | ⟨_, out⟩ := s.checkTerminator_cases false n
  · cases valid
  · cases valid
  · rw [out, address, State.raise]

/-- Settles O28: S_SPAN's range resolution with the word's offset as the end. -/
theorem entryWordsEndSpan : Obligations.EntryWordsEndSpan := by
  intro o s d e phase hd he i hi
  obtain ⟨ty, rfl⟩ := mem_entryWords hi
  have width : (o.setWidth 32).toNat = o.toNat := BitVec.toNat_setWidth_of_le (by decide)
  have ways := s.resolveSpan_cases d (eoff e) (o.setWidth 32)
  rw [eoff_toNat, width] at ways
  rw [exec_entry_of_sSpan ty o phase, needValue_of hd, needValue_of he]
  obtain ⟨outside, out⟩ | ⟨ordered, inside, out⟩ := ways <;> rw [out]
  · exact ⟨fun _ => rfl, fun ordered inside => by omega⟩
  · exact ⟨fun outside => by omega, fun _ _ => rfl⟩

/-- Settles O29: no other PHASE consults an entry by itself. -/
theorem entryWordsElsewhereDoNothing : Obligations.EntryWordsElsewhereDoNothing := by
  intro o s h₁ h₂ h₃ i hi
  obtain ⟨ty, rfl⟩ := mem_entryWords hi
  exact exec_entry_elsewhere ty o h₁ h₂ h₃

/-- Settles O30: each of the three steps does with the entry it consults what the word does. -/
theorem stepRunsConsultedEntry : Obligations.StepRunsConsultedEntry := by
  intro s e n i idle free hn length decoded consulted
  rw [decode_entry_bytes4] at decoded
  cases decoded
  have hn' : s.tick.tLen = some n := s.tick_tLen.trans hn
  obtain ⟨phase | phase, he⟩ | ⟨phase, last⟩ := consulted
  · have phase' : s.tick.phase = .sNext := s.tick_phase.trans phase
    rw [step_of_phase idle free (i := .sNext) (by rw [phase]; rfl), exec_entry_of_sNext _ _ phase' hn']
    exact exec_sNext (by rwa [s.tick_table, s.tick_idx]) hn'
  · have phase' : s.tick.phase = .sSpan := s.tick_phase.trans phase
    have he' : s.tick.table[s.tick.idx.toNat + 1]? = some e := by rwa [s.tick_table, s.tick_idx]
    rw [step_of_phase idle free (i := .sSpan) (by rw [phase]; rfl), exec_entry_of_sSpan _ _ phase', exec,
      execSSpan, he']
    rfl
  · have phase' : s.tick.phase = .sTvalid := s.tick_phase.trans phase
    have whole : n.toNat = s.tick.table.length := by rwa [s.tick_table]
    have valid : tvalid s.tick.table = (decide (etype e = .empty)) := by
      rw [s.tick_table, tvalid, last]
    rw [step_of_phase idle free (i := .sTvalid) (by rw [phase]; rfl), exec_entry_of_sTvalid _ _ phase' hn',
      exec_sTvalid hn' whole.le, whole, List.take_length, valid]
    rfl

/-! ## HEADER -/

/-- Settles O31: in S_HDR the word's magic decides between latching its fields and the error. -/
theorem headerWordIsLatchedInSHdr : Obligations.HeaderWordIsLatchedInSHdr := by
  intro h s
  refine ⟨fun phase magic => ?_, fun phase other => ?_, fun elsewhere => ?_⟩
  · rw [exec, execHeader, if_pos phase, if_pos magic, State.acceptHeader, State.latchHeader, magic, le_magic]
    rfl
  · rw [exec, execHeader, if_pos phase, if_neg other]
    rfl
  · rw [exec, execHeader, if_neg elsewhere]

/-- Settles O32: S_HDR gives the record it reads to HPARSE, which accepts what the decoder does. -/
theorem stepRunsHeaderRead : Obligations.StepRunsHeaderRead := by
  intro s i idle phase readable decoded
  obtain ⟨hlen, magic, rfl⟩ := decode_header_eq_ok.1 decoded
  have free : s.heldBack = false := by simp [State.heldBack, phase]
  have read : s.tick.memRead 0 28 = .bytes (span s 0 28) := by
    rw [State.memRead, s.tick_streamLen, s.tick_ioAnswers, s.tick_stream]
    exact readable.memRead_eq_bytes
  have field : (headerOf (span s 0 28)).magic = Config.magic := (magicOf_eq_iff _ _ (by omega)).2 magic
  rw [step_of_phase idle free (i := .sHdr) (by rw [phase]; rfl), exec_sHdr_of_bytes read, hparse_of_magic magic,
    exec, execHeader, if_pos (s.tick_phase.trans phase), if_pos field]

/-! ## The header elements -/

/-- Settles O47: the header is held as a whole or not at all. -/
theorem headerReadableIffValid : Obligations.HeaderReadableIffValid := by
  intro s inv
  cases valid : s.hValid with
  | true =>
    obtain ⟨h, magic, h1, h2, h3, h4, h5, h6, h7⟩ := inv.headerHeld valid
    rw [magic, le_magic] at h1
    simp [State.hostRead, valid, h1, h2, h3, h4, h5, h6, h7]
  | false =>
    obtain ⟨h1, h2, h3, h4, h5, h6, h7⟩ := inv.noHeader valid
    simp [State.hostRead, valid, h1, h2, h3, h4, h5, h6, h7]

end Sys2Proof.Machine
end

section
/-! Where an instruction stops (10_state R21, 93_implementation_defined U8; log entry 1): one inversion for all
stops, and one rule for an element without a value. -/

namespace Sys2Proof.Machine

open Sys2Proof.Claim

/-! ## Every stop -/

/-- An ENTRY word of any type reads the same elements (log entry 11). -/
theorem readBy_entryInstr (s : State) (ty : FrameType) (o : BitVec 30) :
    readBy s (entryInstr ty o) =
      if s.phase = .sSpan then [.dataBase, .table s.idx.toNat]
      else if s.phase = .sTvalid ∨ s.phase = .sNext then [.tLen] else [] := by
  cases ty <;> rfl

/-- An instruction stops at an element it reads that holds no value, or is one of the two that have a domain of
their own and stands outside it (43_frame_extraction R176, 44_raster_expander R212). -/
theorem exec_eq_fault {i : Instr} {s : State} {f : Fault} (h : exec i s = .fault f) :
    (∃ e ∈ readBy s i, s.hostRead e = none ∧ f = .noValue e) ∨
    (i = .sFetch ∧ f = .spanReversed ∧
      ∃ a z, s.spanStart = some a ∧ s.spanEnd = some z ∧ z.toNat < a.toNat) ∨
    (i = .sExpand ∧ f = .rasmPrecondition ∧ ∃ p w v, s.pbuf = some p ∧ s.hWidth = some w ∧
      s.hHeight = some v ∧ ¬ (DimsGood w v ∧ p.length = w.toNat * v.toNat / 8)) := by
  have entry (ty : FrameType) (o : BitVec 30) (h : consultEntry o ty s = .fault f) :
      ∃ e ∈ readBy s (entryInstr ty o), s.hostRead e = none ∧ f = .noValue e := by
    rw [readBy_entryInstr]
    obtain ⟨phase, ⟨none, rfl⟩ | ⟨_, _, none, rfl⟩⟩ | ⟨phase | phase, none, rfl⟩ := consultEntry_eq_fault.1 h <;>
      simp [phase, State.hostRead, none]
  cases i with
  | entryEmpty o => exact .inl (entry .empty o h)
  | entryIFrame o => exact .inl (entry .iFrame o h)
  | entryPFrame o => exact .inl (entry .pFrame o h)
  | entryIPFrame o => exact .inl (entry .ipFrame o h)
  | header =>
    unfold exec execHeader at h
    split_ifs at h
  | eoff | etype | epack | hparse | hbuild | tvalid | rexp | rasm | sHdr | reset | run => cases h
  | sDim =>
    obtain ⟨none, rfl⟩ | ⟨_, _, none, rfl⟩ := execSDim_eq_fault.1 h <;>
      exact .inl ⟨_, by simp [readBy], by simp [State.hostRead, none], rfl⟩
  | sTread =>
    obtain ⟨none, rfl⟩ := execSTread_eq_fault.1 h
    exact .inl ⟨_, by simp [readBy], by simp [State.hostRead, none], rfl⟩
  | sTvalid =>
    obtain ⟨none, rfl⟩ | ⟨n, hn, short, rfl⟩ := execSTvalid_eq_fault.1 h
    · exact .inl ⟨_, by simp [readBy], by simp [State.hostRead, none], rfl⟩
    · exact .inl ⟨_, by simp [readBy, hn]; omega, by simp [State.hostRead]; omega, rfl⟩
  | sSpan =>
    obtain ⟨none, rfl⟩ | ⟨_, _, ⟨none, rfl⟩ | ⟨_, _, none, rfl⟩⟩ := execSSpan_eq_fault.1 h <;>
      exact .inl ⟨_, by simp [readBy], by simp only [State.hostRead, none, Option.map_none], rfl⟩
  | sFetch =>
    obtain ⟨none, rfl⟩ | ⟨a, ha, ⟨none, rfl⟩ | ⟨z, hz, reversed, rfl⟩⟩ := execSFetch_eq_fault.1 h
    · exact .inl ⟨_, by simp [readBy], by simp [State.hostRead, none], rfl⟩
    · exact .inl ⟨_, by simp [readBy], by simp [State.hostRead, none], rfl⟩
    · exact .inr (.inl ⟨rfl, rfl, a, z, ha, hz, reversed⟩)
  | sInfl =>
    obtain ⟨none, rfl⟩ | ⟨c, hc, ⟨failure, none, rfl⟩ | ⟨p, answer, ⟨none, rfl⟩ | ⟨n, hn, other, none, rfl⟩⟩⟩ :=
      execSInfl_eq_fault.1 h
    · exact .inl ⟨_, by simp [readBy], by simp [State.hostRead, none], rfl⟩
    · exact .inl ⟨_, by simp [readBy, hc, failure], by simp [State.hostRead, none], rfl⟩
    · exact .inl ⟨_, by simp [readBy, hc, answer, none], by simp [State.hostRead, none], rfl⟩
    · exact .inl ⟨_, by simp [readBy, hc, answer, hn, Ne.symm other], by simp [State.hostRead, none], rfl⟩
  | sExpand =>
    obtain ⟨none, rfl⟩ | ⟨p, hp, ⟨none, rfl⟩ | ⟨w, hw, ⟨none, rfl⟩ | ⟨v, hv, outside, rfl⟩⟩⟩ :=
      execSExpand_eq_fault.1 h
    · exact .inl ⟨_, by simp [readBy], by simp [State.hostRead, none], rfl⟩
    · exact .inl ⟨_, by simp [readBy], by simp [State.hostRead, none], rfl⟩
    · exact .inl ⟨_, by simp [readBy], by simp [State.hostRead, none], rfl⟩
    · exact .inr (.inr ⟨rfl, rfl, p, w, v, hp, hw, hv, by rw [← rasmDomain_iff, outside]; simp⟩)
  | sNext =>
    obtain ⟨none, rfl⟩ | ⟨_, _, none, rfl⟩ := execSNext_eq_fault.1 h <;>
      exact .inl ⟨_, by simp [readBy], by simp only [State.hostRead, none, Option.map_none], rfl⟩

/-! ## An element without a value stops the instruction that reads it -/

/-- The outcome is a stop for want of a value. -/
def Wants (r : Result) : Prop := ∃ e, r = .fault (.noValue e)

theorem wants_needValue {α : Type} {e : Elem} {v : Option α} {k : α → Result} (h : v = none) :
    Wants (needValue e v k) := ⟨e, by rw [h, needValue_none]⟩

/-- An element of which a host read gets nothing holds no value (10_state R42). -/
theorem wants_missing {α : Type} {e : Elem} {v : Option α} {f : α → ElemValue} {k : α → Result}
    (missing : v.map f = none) : Wants (needValue e v k) :=
  wants_needValue (Option.map_eq_none_iff.1 missing)

/-- What is read before the element that is missing may be missing too. -/
theorem wants_needValue_of {α : Type} {e : Elem} {v : Option α} {k : α → Result}
    (h : ∀ x, v = some x → Wants (k x)) : Wants (needValue e v k) := by
  cases v with
  | none => exact wants_needValue rfl
  | some x => exact h x rfl

/-- An ENTRY word that finds no value beside it stops, whatever its type. -/
theorem wants_entry {ty : FrameType} {o : BitVec 30} {s : State} {e : Elem}
    (he : e ∈ readBy s (entryInstr ty o)) (missing : s.hostRead e = none) :
    Wants (exec (entryInstr ty o) s) := by
  rw [readBy_entryInstr] at he
  split_ifs at he with span other
  · rw [exec_entry_of_sSpan ty o span]
    simp only [List.mem_cons, List.not_mem_nil, or_false] at he
    obtain rfl | rfl := he
    · exact wants_missing missing
    · exact wants_needValue_of fun _ _ => wants_missing missing
  · rw [List.mem_singleton] at he
    subst he
    rw [exec_entryInstr]
    exact ⟨.tLen, consultEntry_eq_fault.2 (.inr ⟨other, Option.map_eq_none_iff.1 missing, rfl⟩)⟩
  · cases he

/-- An instruction that reads an element without a value stops for want of a value. -/
theorem wants_exec {i : Instr} {s : State} {e : Elem} (he : e ∈ readBy s i) (missing : s.hostRead e = none) :
    Wants (exec i s) := by
  cases i with
  | entryEmpty o => exact wants_entry (ty := .empty) he missing
  | entryIFrame o => exact wants_entry (ty := .iFrame) he missing
  | entryPFrame o => exact wants_entry (ty := .pFrame) he missing
  | entryIPFrame o => exact wants_entry (ty := .ipFrame) he missing
  | header | eoff | etype | epack | hparse | hbuild | tvalid | rexp | rasm | sHdr | reset | run => cases he
  | sDim =>
    simp only [readBy, List.mem_cons, List.not_mem_nil, or_false] at he
    obtain rfl | rfl := he
    · exact wants_missing missing
    · exact wants_needValue_of fun _ _ => wants_missing missing
  | sTread =>
    simp only [readBy, List.mem_singleton] at he
    subst he
    exact wants_missing missing
  | sTvalid =>
    refine wants_needValue_of fun n hn => wants_needValue ((s.heldTable_eq_none _).2 ?_)
    simp only [readBy, hn, Option.map_some, Option.getD_some, List.mem_cons, List.mem_map, List.mem_range] at he
    obtain rfl | ⟨k, inside, rfl⟩ := he
    · simp [State.hostRead, hn] at missing
    · exact (List.getElem?_eq_none_iff.1 (Option.map_eq_none_iff.1 missing)).trans_lt inside
  | sSpan =>
    simp only [readBy, List.mem_cons, List.not_mem_nil, or_false] at he
    obtain rfl | rfl | rfl := he
    · exact wants_missing missing
    · exact wants_needValue_of fun _ _ => wants_missing missing
    · exact wants_needValue_of fun _ _ => wants_needValue_of fun _ _ => wants_missing missing
  | sFetch =>
    simp only [readBy, List.mem_cons, List.not_mem_nil, or_false] at he
    obtain rfl | rfl := he
    · exact wants_missing missing
    · exact wants_needValue_of fun _ _ => wants_missing missing
  | sInfl =>
    refine wants_needValue_of fun c hc => ?_
    simp only [readBy, hc, Option.map_some, List.mem_cons] at he
    obtain rfl | he := he
    · simp [State.hostRead, hc] at missing
    · cases answer : s.askInflate c with
      | never => simp [answer] at he
      | fail =>
        simp only [answer, List.mem_singleton] at he ⊢
        subst he
        exact wants_missing missing
      | ok p =>
        simp only [answer] at he ⊢
        refine wants_needValue_of fun n hn => ?_
        simp only [hn, Option.map_some, Option.some.injEq] at he
        split_ifs at he with whole
        · rw [List.mem_singleton] at he
          subst he
          simp [State.hostRead, hn] at missing
        · simp only [List.mem_cons, List.not_mem_nil, or_false] at he
          obtain rfl | rfl := he
          · simp [State.hostRead, hn] at missing
          · rw [if_neg (Ne.symm whole)]
            exact wants_missing missing
  | sExpand =>
    simp only [readBy, List.mem_cons, List.not_mem_nil, or_false] at he
    obtain rfl | rfl | rfl := he
    · exact wants_missing missing
    · exact wants_needValue_of fun _ _ => wants_missing missing
    · exact wants_needValue_of fun _ _ => wants_needValue_of fun _ _ => wants_missing missing
  | sNext =>
    simp only [readBy, List.mem_cons, List.not_mem_nil, or_false] at he
    obtain rfl | rfl := he
    · exact wants_missing missing
    · exact wants_needValue_of fun _ _ => wants_missing missing

/-! ## The statements -/

/-- Settles O58: every stop for want of a value names such an element, and every such element stops. -/
theorem stopsExactlyWhereNoValue : Obligations.StopsExactlyWhereNoValue := by
  intro s i
  have named (e : Elem) (h : exec i s = .fault (.noValue e)) : e ∈ readBy s i ∧ s.hostRead e = none := by
    obtain ⟨e', he, missing, same⟩ | ⟨_, other, _⟩ | ⟨_, other, _⟩ := exec_eq_fault h
    · cases same
      exact ⟨he, missing⟩
    · cases other
    · cases other
  exact ⟨⟨fun ⟨e, h⟩ => ⟨e, named e h⟩, fun ⟨_, he, missing⟩ => wants_exec he missing⟩, named⟩

/-- Settles O59: the other stops are S_FETCH's and S_EXPAND's, each outside its domain. -/
theorem otherStopsAreOutsideTheDomain : Obligations.OtherStopsAreOutsideTheDomain := by
  intro s i
  refine ⟨⟨fun h => ?_, ?_⟩, fun h => ?_, ?_⟩
  · obtain ⟨_, _, _, other⟩ | ⟨fetch, _, reversed⟩ | ⟨_, other, _⟩ := exec_eq_fault h
    · cases other
    · exact ⟨fetch, reversed⟩
    · cases other
  · rintro ⟨rfl, a, z, ha, hz, reversed⟩
    exact execSFetch_eq_fault.2 (.inr ⟨a, ha, .inr ⟨z, hz, reversed, rfl⟩⟩)
  · obtain ⟨_, _, _, other⟩ | ⟨_, other, _⟩ | ⟨expand, _, outside⟩ := exec_eq_fault h
    · cases other
    · cases other
    · exact ⟨expand, outside⟩
  · rintro ⟨rfl, p, w, v, hp, hw, hv, outside⟩
    rw [← rasmDomain_iff, Bool.not_eq_true] at outside
    exact execSExpand_eq_fault.2 (.inr ⟨p, hp, .inr ⟨w, hw, .inr ⟨v, hv, outside, rfl⟩⟩⟩)

end Sys2Proof.Machine
end
